-- ==== Sys2Proof/Word.lean ====
section
/-! DEFINITION. The widths of the block's words (00_scope.md R5, R6). -/

namespace Sys2Proof

/-- The word width `W`: bits in every state bitmask and in the raw sample (R5, D2, 90_conflicts.md C6). -/
abbrev W : Nat := 32

/-- A `W`-bit bitmask, a command word, or a register of the window (R6, R50, R70). -/
abbrev Word := BitVec 32

/-- An 8-bit field: a pin index, an entry index or `COUNT` (R5 PIN_BITS, R20, R73). -/
abbrev Byte := BitVec 8

/-- A handler or argument token, TOKEN_BITS = 8 wide: the opaque name of a host object (R5, R10). -/
abbrev Token := BitVec 8

/-- A byte offset into the 1 KiB register window (R50: offset bits [9:0]). -/
abbrev Offset := BitVec 10

end Sys2Proof
end

