-- ==== Sys2Proof/Syntax.lean ====
section
/-! DEFINITION. The command words as syntax (30_encoding.md R70 to R76). -/

namespace Sys2Proof

/-- An edge phase, RISE or FALL (00_scope.md R9). -/
inductive Edge where
  | rise
  | fall
deriving DecidableEq, Repr

/-- One constructor per row of the opcode map R76, with the operands of its format (R71 to R75). -/
inductive Instr where
  /-- TICK, format N (R170). -/
  | tick
  /-- REGISTER, format P: the pin index (R141). -/
  | register (pin : Byte)
  /-- SETH, format E: set (`present`) or clear one edge's handler token of one entry (R144). -/
  | seth (entry : Byte) (edge : Edge) (present : Bool) (token : Token)
  /-- SETA, format E: set or clear one edge's argument token of one entry (R145). -/
  | seta (entry : Byte) (edge : Edge) (present : Bool) (token : Token)
  /-- ACK, format A: whether the handler raised (R177). -/
  | ack (raised : Bool)
  /-- RESET, format N (R146). -/
  | reset
deriving DecidableEq, Repr

end Sys2Proof
end

