-- ==== Sys2Proof/WellFormed.lean ====
section
/-! DEFINITION. Which terms of `Instr` are instructions of the block. The fields' types already bound every operand;
the one relation between fields is that an absent token is 0 (00_scope.md R10, 30_encoding.md R75 and R78). -/

namespace Sys2Proof

/-- R10, R75: when PRESENT is 0, TOKEN is 0. -/
abbrev tokenWellFormed (present : Bool) (token : Token) : Prop := present = false → token = 0

/-- The check of a term of `Instr`: what the decoder of R82 can return passes it. -/
def Instr.wellFormed : Instr → Bool
  | .tick => true
  | .register _ => true
  | .seth _ _ present token => decide (tokenWellFormed present token)
  | .seta _ _ present token => decide (tokenWellFormed present token)
  | .ack _ => true
  | .reset => true

/-- A well-formed instruction. -/
abbrev Instr.WellFormed (i : Instr) : Prop := i.wellFormed = true

end Sys2Proof
end

