-- ==== Sys2Proof/Decode.lean ====
section
/-! DEFINITION. The decoder of 30_encoding.md R82, the encoder of R71 to R76, the opcode map R76 as rows, and the
pseudo-instructions of R81. -/

namespace Sys2Proof

/-- Why a word is illegal (R77). Both reasons give RESULT = ILLEGAL. -/
inductive DecodeError where
  /-- OP is 0x0 or one of 0x6 to 0xE. -/
  | unassignedOpcode
  /-- OP is assigned, and a reserved bit of its format is 1. -/
  | reservedBits
deriving DecidableEq, Repr

/-- R70: the opcode `OP`, bits [31:28]. -/
def opField (v : Word) : BitVec 4 := v.extractLsb' 28 4

/-- R72: PIN, bits [7:0]. -/
def pinField (v : Word) : Byte := v.extractLsb' 0 8

/-- R73: ENTRY, bits [23:16]. -/
def entryField (v : Word) : Byte := v.extractLsb' 16 8

/-- The edge a bit stands for: 0 = RISE, 1 = FALL (R9, R73). -/
def edgeOfBit (b : Bool) : Edge := if b then .fall else .rise

/-- The bit that stands for an edge: RISE = 0, FALL = 1 (R9, R73). -/
def bitOfEdge : Edge → Bool
  | .rise => false
  | .fall => true

/-- R73: EDGE, bit [15]. -/
def edgeField (v : Word) : Edge := edgeOfBit (v.getLsbD 15)

/-- R73: PRESENT, bit [8]. -/
def presentField (v : Word) : Bool := v.getLsbD 8

/-- R75, R78: TOKEN is the given bits when PRESENT = 1, and 0 when PRESENT = 0. -/
def tokenOperand (present : Bool) (token : Token) : Token := if present then token else 0

/-- R73, R75: TOKEN, bits [7:0] when PRESENT = 1, else 0. -/
def tokenField (v : Word) : Token := tokenOperand (presentField v) (v.extractLsb' 0 8)

/-- R74: RAISED, bit [0]. -/
def raisedField (v : Word) : Bool := v.getLsbD 0

/-- R71: the reserved bits [27:0] of format N are 0. -/
def reservedZeroN (v : Word) : Bool := v.extractLsb' 0 28 == 0

/-- R72: the reserved bits [27:8] of format P are 0. -/
def reservedZeroP (v : Word) : Bool := v.extractLsb' 8 20 == 0

/-- R73: the reserved bits [27:24] and [14:9] of format E are 0. -/
def reservedZeroE (v : Word) : Bool := v.extractLsb' 24 4 == 0 && v.extractLsb' 9 6 == 0

/-- R74: the reserved bits [27:1] of format A are 0. -/
def reservedZeroA (v : Word) : Bool := v.extractLsb' 1 27 == 0

/-- `i` when the reserved bits are 0, the rejection by name otherwise (R77). -/
def whenReservedZero (zero : Bool) (i : Instr) : Except DecodeError Instr :=
  if zero then .ok i else .error .reservedBits

/-- R82: the decoder, total on all 2^32 words. -/
def decode (v : Word) : Except DecodeError Instr :=
  if opField v = 0x1 then whenReservedZero (reservedZeroN v) .tick
  else if opField v = 0x2 then whenReservedZero (reservedZeroP v) (.register (pinField v))
  else if opField v = 0x3 then
    whenReservedZero (reservedZeroE v) (.seth (entryField v) (edgeField v) (presentField v) (tokenField v))
  else if opField v = 0x4 then
    whenReservedZero (reservedZeroE v) (.seta (entryField v) (edgeField v) (presentField v) (tokenField v))
  else if opField v = 0x5 then whenReservedZero (reservedZeroA v) (.ack (raisedField v))
  else if opField v = 0xF then whenReservedZero (reservedZeroN v) .reset
  else .error .unassignedOpcode

/-- R73: a word of format E from its opcode and operands, reserved bits 0. -/
def encodeE (op : BitVec 4) (entry : Byte) (edge : Edge) (present : Bool) (token : Token) : Word :=
  op ++ 0#4 ++ entry ++ BitVec.ofBool (bitOfEdge edge) ++ 0#6 ++ BitVec.ofBool present ++ token

/-- R71 to R74, R80: the word of an instruction. -/
def encode : Instr → Word
  | .tick => 0x1#4 ++ 0#28
  | .register pin => 0x2#4 ++ 0#20 ++ pin
  | .seth entry edge present token => encodeE 0x3 entry edge present token
  | .seta entry edge present token => encodeE 0x4 entry edge present token
  | .ack raised => 0x5#4 ++ 0#27 ++ BitVec.ofBool raised
  | .reset => 0xF#4 ++ 0#28

/-- One row of the opcode map (R76). -/
structure OpcodeRow where
  mnemonic : String
  matchBits : Word
  mask : Word
deriving DecidableEq, Repr

/-- R76: the row of each instruction, with the match and mask columns of the map. -/
def opcodeRow : Instr → OpcodeRow
  | .tick => ⟨"TICK", 0x10000000, 0xFFFFFFFF⟩
  | .register _ => ⟨"REGISTER", 0x20000000, 0xFFFFFF00⟩
  | .seth _ _ _ _ => ⟨"SETH", 0x30000000, 0xFF007E00⟩
  | .seta _ _ _ _ => ⟨"SETA", 0x40000000, 0xFF007E00⟩
  | .ack _ => ⟨"ACK", 0x50000000, 0xFFFFFFFE⟩
  | .reset => ⟨"RESET", 0xF0000000, 0xFFFFFFFF⟩

/-- R76: the six rows of the map. -/
def opcodeMap : List OpcodeRow :=
  [opcodeRow .tick, opcodeRow (.register 0), opcodeRow (.seth 0 .rise false 0),
   opcodeRow (.seta 0 .rise false 0), opcodeRow (.ack false), opcodeRow .reset]

/-- R76: a word is a row's instruction exactly when `(w AND mask) = match`. -/
def OpcodeRow.holds (r : OpcodeRow) (v : Word) : Bool := v &&& r.mask == r.matchBits

/-- R81: CLRH clears one edge's handler. -/
def pseudoClrh (entry : Byte) (edge : Edge) : Instr := .seth entry edge false 0

/-- R81: CLRA clears one edge's argument token. -/
def pseudoClra (entry : Byte) (edge : Edge) : Instr := .seta entry edge false 0

/-- R81: BUTTON, with `n` the value of COUNT before the REGISTER. -/
def pseudoButton (n pin : Byte) (rise fall rargs fargs : Option Token) : List Instr :=
  [.register pin] ++ (rise.map (.seth n .rise true)).toList ++ (fall.map (.seth n .fall true)).toList
    ++ (rargs.map (.seta n .rise true)).toList ++ (fargs.map (.seta n .fall true)).toList

/-- The instruction that the decoder reads from a table word of `nbits` bits, every bit above them 0. A value that does
not fit in one 32-bit command word is no word of this block (R70). -/
def decodeTableWord (nbits w : Nat) : Option Instr :=
  if w % 2 ^ nbits < 2 ^ 32 then (decode (BitVec.ofNat 32 (w % 2 ^ nbits))).toOption else none

end Sys2Proof
end

