-- ==== Sys2Proof/Config.lean ====
section
/-! DEFINITION. What an implementation of the block fixes (00_scope.md R5), and the one free value: the raw sample. -/

namespace Sys2Proof.Config

/-- The two parameters that R5 leaves to the implementation. Log 1. -/
structure Params where
  /-- `MAX_BUTTONS`, the capacity of the button table; 1 to 32 in an implementation (R5, D4). -/
  maxButtons : Nat
  /-- `ABORT_COMMITS_LAST`: a tick aborted by a raising handler still writes `LAST` (R5, D12). -/
  abortCommitsLast : Bool
deriving DecidableEq, Repr

/-- R5: 1 ≤ MAX_BUTTONS ≤ 32. -/
abbrev Params.Legal (p : Params) : Prop := 1 ≤ p.maxButtons ∧ p.maxButtons ≤ 32

/-- The defaults of R5: MAX_BUTTONS = 32, ABORT_COMMITS_LAST = false. -/
def Params.default : Params where
  maxButtons := 32
  abortCommitsLast := false

/-- FREE VALUE: the word that `sample_in` carries at the `n`-th `SampleRead()` when the environment has not said (R9,
R171, D25, U5: "any value"). It has no body, so nothing can be proved of it. Log 2. -/
opaque sampleIn : Nat → Word

end Sys2Proof.Config
end

