-- ==== Sys2Proof/Machine/State.lean ====
section
/-! DEFINITION. The state of the block (10_state.md R20), its ports, the host's pending acts, and the state right after
reset (R38). Plain data. -/

namespace Sys2Proof.Machine

/-- An optional token: present bit and token (00_scope.md R10). When `present` is 0 the stored token is 0 (R37 item 2). -/
structure OptToken where
  present : Bool
  token : Token
deriving DecidableEq, Repr

/-- The absent token (0, 0). -/
def OptToken.absent : OptToken := ⟨false, 0⟩

/-- One entry `T[i]` of the button table (R29): the pin, `h[RISE]`, `h[FALL]`, `a[RISE]`, `a[FALL]`. -/
structure Entry where
  pin : Byte
  hRise : OptToken
  hFall : OptToken
  aRise : OptToken
  aFall : OptToken
deriving DecidableEq, Repr

/-- The all-zero record (R28, R38). -/
def Entry.zero : Entry := ⟨0, .absent, .absent, .absent, .absent⟩

/-- The RESULT codes that are ever written (60_exceptions.md R201; 8 to 15 are never written, V2). Log 15. -/
inductive ResultCode where
  | ok
  | illegal
  | pinRange
  | tableFull
  | badEntry
  | notDispatching
  | handlerRaised
  | faulted
deriving DecidableEq, Repr

/-- The FAULT codes that are ever written (R202; 3 to 15 are never written, V2). Log 15. -/
inductive FaultCode where
  | none
  | reentrantTick
  | registerInDispatch
deriving DecidableEq, Repr

/-- `CURSOR`: entry 5 bits, phase 1 bit (R20, R31). -/
structure Cursor where
  entry : BitVec 5
  phase : Edge
deriving DecidableEq, Repr

/-- Who makes an access: the one host of R4 and R67, or any other execution context (U2). Log 8. -/
inductive Context where
  | owner
  | other
deriving DecidableEq, Repr

/-- What the outside world does to the block (20_memory.md R50): a bus read, a bus write, a new level of `rst`, or the
choice of the word that `sample_in` carries at the next `SampleRead()`. `bytes` is the access width in bytes (R56). -/
inductive HostAct where
  | read (ctx : Context) (offset : Offset) (bytes : Nat)
  | write (ctx : Context) (offset : Offset) (bytes : Nat) (value : Word)
  | setRst (level : Bool)
  | setSample (value : Word)
deriving DecidableEq, Repr

/-- What a run produces (R11): the RESULT of every command, each presented event, each acknowledgement with its event,
each value read, each bus error response (R56). Log 10. -/
inductive TraceItem where
  | result (code : ResultCode)
  | presented (event : Word)
  | acked (event : Word) (raised : Bool)
  | readData (offset : Offset) (value : Word)
  | busError
deriving DecidableEq, Repr

/-- The state. The first group is R20's tuple; `rst` is the present level of the reset input (R50, R230); the last group
is the model's own: the implementation's parameters, the environment's sample, the outside world's pending acts and the
trace. -/
structure State where
  /-- `RAW` (R21): the debounced state. -/
  raw : Word
  /-- `C0` (R22): the low stage of the vertical counter. -/
  c0 : Word
  /-- `C1` (R23): the high stage of the vertical counter. -/
  c1 : Word
  /-- `LAST` (R25): the debounced state as of the previous tick. -/
  last : Word
  /-- `DELTA` (R26): the lanes that disagreed with `RAW` in the latest TICK. -/
  delta : Word
  /-- `RISING` (R27). -/
  rising : Word
  /-- `FALLING` (R27). -/
  falling : Word
  /-- `COUNT` (R28): the number of registered buttons. -/
  count : Byte
  /-- `T` (R28, R29): 32 slots, of which the first MAX_BUTTONS exist in the implementation. Log 16. -/
  table : Vector Entry 32
  /-- `DISPATCHING` (R31): a walk waits for an acknowledgement. -/
  dispatching : Bool
  /-- `CURSOR` (R31): meaningful only while `DISPATCHING = 1`. Log 11. -/
  cursor : Cursor
  /-- `EVENT` (R31, R53): the latched event. -/
  event : Word
  /-- `RESULT` (R32). -/
  result : ResultCode
  /-- `FAULT` (R33): sticky. -/
  fault : Bool
  /-- `FAULT_CODE` (R33). -/
  faultCode : FaultCode
  /-- The level of the `rst` input (R50, R230). Log 12. -/
  rst : Bool
  /-- The implementation's parameters (R5). No step changes them. Log 1. -/
  params : Config.Params
  /-- The word the environment has chosen for the next `SampleRead()`; `none`: any word (U5). Log 2. -/
  sampleNext : Option Word
  /-- How many samples have been read. Log 2. -/
  draws : Nat
  /-- The outside world's pending acts, oldest first. Log 3. -/
  bus : List HostAct
  /-- What the run has produced so far, newest first (R11). Log 10. -/
  trace : List TraceItem
deriving DecidableEq, Repr

/-- The reasons a step can stop with a fault. The block's own FAULT (R205) is NOT one of them: it is a next state with
`fault = true`; nor is a bus error (R56), which is a next state too. Log 5, 6, 7. -/
inductive Fault where
  /-- Raised by REGISTER, SETH and SETA when they would write a table entry that the implementation does not have
  (an index of MAX_BUTTONS or more, R28), which needs COUNT > MAX_BUTTONS: no run reaches that (R37 item 1). Safe. -/
  | noSuchEntry
deriving DecidableEq, Repr

/-- The reasons a step gives no meaning. -/
inductive Refusal where
  /-- Raised by an arm of `exec` whose instruction has no meaning yet; no arm does so. Safe. -/
  | notModelled (mnemonic : String)
  /-- Raised by the step on an access by a second execution context, which R67 and U2 have the model refuse. Safe. -/
  | secondContext
deriving DecidableEq, Repr

/-- R38: every element of R20 at its reset value, for an implementation with the given parameters; `rst` released, and
the outside world with nothing pending. -/
def State.resetWith (p : Config.Params) : State where
  raw := 0
  c0 := 0
  c1 := 0
  last := 0
  delta := 0
  rising := 0
  falling := 0
  count := 0
  table := Vector.replicate 32 Entry.zero
  dispatching := false
  cursor := ⟨0, .rise⟩
  event := 0
  result := .ok
  fault := false
  faultCode := .none
  rst := false
  params := p
  sampleNext := none
  draws := 0
  bus := []
  trace := []

/-- The machine right after reset (R38, R230), with the default parameters of R5. -/
def State.reset : State := State.resetWith Config.Params.default

end Sys2Proof.Machine
end

