-- ==== Sys2Proof/Machine/Flags.lean ====
section
/-! DEFINITION. The block has no arithmetic flags (10_state.md R39). What it has is the status it reports: the RESULT and
FAULT codes (60_exceptions.md R201, R202) and the STATUS word (20_memory.md R52). -/

namespace Sys2Proof.Machine

/-- R201: the code of each result, `STATUS[3:0]`. -/
def ResultCode.code : ResultCode → BitVec 4
  | .ok => 0
  | .illegal => 1
  | .pinRange => 2
  | .tableFull => 3
  | .badEntry => 4
  | .notDispatching => 5
  | .handlerRaised => 6
  | .faulted => 7

/-- R202: the code of each fault, `STATUS[11:8]`. -/
def FaultCode.code : FaultCode → BitVec 4
  | .none => 0
  | .reentrantTick => 1
  | .registerInDispatch => 2

/-- R52: STATUS = COUNT [23:16], FAULT_CODE [11:8], FAULT [5], DISPATCHING [4], RESULT [3:0]; the other bits 0. -/
def State.statusWord (s : State) : Word :=
  0#8 ++ s.count ++ 0#4 ++ s.faultCode.code ++ 0#2 ++ BitVec.ofBool s.fault ++ BitVec.ofBool s.dispatching
    ++ s.result.code

/-- R209: the output `evt_valid` is a level equal to DISPATCHING. -/
def State.evtValid (s : State) : Bool := s.dispatching

end Sys2Proof.Machine
end

