-- ==== Sys2Proof/Machine/Operands.lean ====
section
/-! DEFINITION. What the commands address: optional tokens, the fields of an entry, positions of the dispatch walk, a
lane's bit, and the words an entry and an event are read as (10_state.md R29, 20_memory.md R53 and R54). -/

namespace Sys2Proof.Machine

/-- R10, R75, R78: an optional token from PRESENT and TOKEN; absent is (0, 0). Log 19. -/
def OptToken.ofOperand (present : Bool) (token : Token) : OptToken := ⟨present, tokenOperand present token⟩

/-- R141: the record REGISTER appends: the pin, no handlers and no arguments. -/
def Entry.new (pin : Byte) : Entry := ⟨pin, .absent, .absent, .absent, .absent⟩

/-- `h[ph]` (R29). -/
def Entry.h (t : Entry) : Edge → OptToken
  | .rise => t.hRise
  | .fall => t.hFall

/-- `a[ph]` (R29). -/
def Entry.a (t : Entry) : Edge → OptToken
  | .rise => t.aRise
  | .fall => t.aFall

/-- `h[ph] <- o` (R144). -/
def Entry.setH (t : Entry) (ph : Edge) (o : OptToken) : Entry :=
  match ph with
  | .rise => { t with hRise := o }
  | .fall => { t with hFall := o }

/-- `a[ph] <- o` (R145). -/
def Entry.setA (t : Entry) (ph : Edge) (o : OptToken) : Entry :=
  match ph with
  | .rise => { t with aRise := o }
  | .fall => { t with aFall := o }

/-- A position (e, ph) of the dispatch walk (R173). -/
structure Pos where
  entry : Nat
  phase : Edge
deriving DecidableEq, Repr

/-- R173: `Succ(e, RISE) = (e, FALL)`, `Succ(e, FALL) = (e + 1, RISE)`. -/
def Pos.succ (p : Pos) : Pos :=
  match p.phase with
  | .rise => ⟨p.entry, .fall⟩
  | .fall => ⟨p.entry + 1, .rise⟩

/-- The place of a position in the walk order (0, RISE), (0, FALL), (1, RISE), … of R173. -/
def Pos.rank (p : Pos) : Nat := 2 * p.entry + (bitOfEdge p.phase).toNat

/-- The position CURSOR names (R31). -/
def Cursor.pos (c : Cursor) : Pos := ⟨c.entry.toNat, c.phase⟩

/-- `CURSOR <- (e, ph)` (R175); the entry index has 5 bits (R20). -/
def Pos.cursor (p : Pos) : Cursor := ⟨BitVec.ofNat 5 p.entry, p.phase⟩

/-- `mask[pin]`, the bit of a pin in an edge mask (R6, R174). -/
def laneBit (mask : Word) (pin : Byte) : Bool := mask.getLsbD pin.toNat

/-- R53, R175: EVENT = 1<<31 | e<<26 | ph<<25 | ARGS_PRESENT<<24 | ARGS<<16 | HANDLER<<8 | PIN. -/
def eventWord (p : Pos) (t : Entry) : Word :=
  1#1 ++ BitVec.ofNat 5 p.entry ++ BitVec.ofBool (bitOfEdge p.phase) ++ BitVec.ofBool (t.a p.phase).present
    ++ (t.a p.phase).token ++ (t.h p.phase).token ++ t.pin

/-- R54: `ENTRY_PIN` = VALID [31], pin [7:0]. -/
def entryPinWord (valid : Bool) (t : Entry) : Word := BitVec.ofBool valid ++ 0#23 ++ t.pin

/-- R54: `ENTRY_RISE` and `ENTRY_FALL` = a.present [24], a.token [23:16], h.present [8], h.token [7:0]. -/
def entryEdgeWord (t : Entry) (ph : Edge) : Word :=
  0#7 ++ BitVec.ofBool (t.a ph).present ++ (t.a ph).token ++ 0#7 ++ BitVec.ofBool (t.h ph).present ++ (t.h ph).token

end Sys2Proof.Machine
end

