-- ==== Sys2Proof/Machine/Ops.lean ====
section
/-! DEFINITION. The named operations every command is built from: the sample draw, RESULT, rejection, the block's fault
entry, the preamble's fault check, the button table, the dispatch walk with its upcall and return, and reset. -/

namespace Sys2Proof.Machine

/-- The outcome of a step of this machine. -/
abbrev Result := Host.Outcome State Fault Refusal

/-- The value `SampleRead()` returns: the word the environment has chosen, or the free value (R9, R171). Log 2. -/
def State.sampleValue (s : State) : Word := s.sampleNext.getD (Config.sampleIn s.draws)

/-- `SampleRead()` as an effect on the environment: the sample is consumed and the next one is free again. No
element of R20 changes (R9). -/
def State.drawSample (s : State) : State := { s with sampleNext := none, draws := s.draws + 1 }

/-- Adds one item to what the run has produced (R11). -/
def State.note (s : State) (x : TraceItem) : State := { s with trace := x :: s.trace }

/-- `RESULT <- code` (R32). -/
def State.setResult (s : State) (code : ResultCode) : State := { s with result := code }.note (.result code)

/-- R9 `reject(code)`, R200 item 1: RESULT is written and the command ends with no other effect. -/
def reject (code : ResultCode) (s : State) : Result := .next (s.setResult code)

/-- R205: `raise Fault(code)`, the block's fault entry. FAULT, FAULT_CODE and RESULT are written and nothing else. Its
return is reset alone (R206). -/
def raiseFault (code : FaultCode) (s : State) : Result :=
  .next ({ s with fault := true, faultCode := code }.setResult .faulted)

/-- R204, R206: while FAULT = 1 the command is ignored with RESULT <- FAULTED. -/
def unlessFaulted (s : State) (run : Result) : Result := if s.fault then reject .faulted s else run

/-- Whether the implementation has the entry `T[i]` (R20, R28: T[0..MAX_BUTTONS-1]). -/
def State.hasEntry (s : State) (i : Nat) : Bool := decide (i < s.params.maxButtons) && decide (i < 32)

/-- `T[i]`; an index outside the table reads as the all-zero record (R28, R54). -/
def State.entry (s : State) (i : Nat) : Entry := s.table[i]?.getD Entry.zero

/-- `T[i] <- t` for an entry that exists. -/
def State.setEntry (s : State) (i : Nat) (t : Entry) : State := { s with table := s.table.setIfInBounds i t }

/-- `T[i] <- t`, and then the rest of the command; a write to an entry that does not exist stops. Log 7. -/
def writeEntry (s : State) (i : Nat) (t : Entry) (rest : State → Result) : Result :=
  if s.hasEntry i then rest (s.setEntry i t) else .fault .noSuchEntry

/-- R174: the edge mask of a phase. -/
def State.edgeMask (s : State) : Edge → Word
  | .rise => s.rising
  | .fall => s.falling

/-- R174: `Match(e, ph)`. -/
def State.matches (s : State) (p : Pos) : Bool :=
  laneBit (s.edgeMask p.phase) (s.entry p.entry).pin && ((s.entry p.entry).h p.phase).present

/-- The loop of R173's `NextEvent`, with a bound on the number of positions it visits. -/
def nextEventLoop (s : State) : Nat → Pos → Option Pos
  | 0, _ => none
  | n + 1, p =>
    if p.entry < s.count.toNat then
      if s.matches p then some p else nextEventLoop s n p.succ
    else none

/-- R173: `NextEvent(p)`, the first matching position at or after `p`. There are 2*COUNT positions (R189). -/
def State.nextEvent (s : State) (p : Pos) : Option Pos := nextEventLoop s (2 * s.count.toNat) p

/-- R175, R208: `Present(p)`, the dispatch upcall. -/
def State.present (s : State) (p : Pos) : State :=
  { s with
    cursor := p.cursor
    event := eventWord p (s.entry p.entry)
    dispatching := true }.note (.presented (eventWord p (s.entry p.entry)))

/-- R178: `Finish()`. -/
def State.finish (s : State) : State := { s with dispatching := false, event := 0, last := s.raw }

/-- R179: `Abort()`. -/
def State.abort (s : State) : State :=
  { s with
    dispatching := false
    event := 0
    last := if s.params.abortCommitsLast then s.raw else s.last }.setResult .handlerRaised

/-- R170, R177: present the first matching position at or after `p`, or finish. -/
def State.walkFrom (s : State) (p : Pos) : State :=
  match s.nextEvent p with
  | none => s.finish
  | some q => s.present q

/-- R38, R230: every element of R20 to its reset value. The parameters are constants, and the level of `rst`, the
sample, the pending acts and the trace are the outside world's. Log 4. -/
def State.resetBlock (s : State) : State :=
  { State.resetWith s.params with
    rst := s.rst, sampleNext := s.sampleNext, draws := s.draws, bus := s.bus, trace := s.trace }

end Sys2Proof.Machine
end

