-- ==== Sys2Proof/Machine/Registry.lean ====
section
/-! DEFINITION. REGISTER, SETH, SETA and RESET (42_registry.md). -/

namespace Sys2Proof.Machine

/-- R142: priming: RAW and LAST take one fresh sample; the counters and masks are left alone (C3, C5). -/
def State.prime (s : State) : State := { s.drawSample with raw := s.sampleValue, last := s.sampleValue }

/-- R141: the rest of REGISTER once the entry is written: COUNT + 1, priming, RESULT <- OK. -/
def State.countAndPrime (s : State) : State := { s with count := s.count + 1 }.prime.setResult .ok

/-- R141: REGISTER once it is accepted. -/
def registerAccepted (pin : Byte) (s : State) : Result :=
  writeEntry s s.count.toNat (Entry.new pin) fun s' => .next s'.countAndPrime

/-- R141: REGISTER. -/
def execRegister (pin : Byte) (s : State) : Result :=
  unlessFaulted s <|
    if s.dispatching then raiseFault .registerInDispatch s
    else if W ≤ pin.toNat then reject .pinRange s
    else if s.count.toNat = s.params.maxButtons then reject .tableFull s
    else registerAccepted pin s

/-- R144, R145: replace one field of a registered entry; BAD_ENTRY for an entry that is not registered. -/
def updateEntry (entry : Byte) (f : Entry → Entry) (s : State) : Result :=
  unlessFaulted s <|
    if s.count.toNat ≤ entry.toNat then reject .badEntry s
    else writeEntry s entry.toNat (f (s.entry entry.toNat)) fun s' => .next (s'.setResult .ok)

/-- R144: SETH. -/
def execSeth (entry : Byte) (edge : Edge) (present : Bool) (token : Token) (s : State) : Result :=
  updateEntry entry (fun t => t.setH edge (.ofOperand present token)) s

/-- R145: SETA. -/
def execSeta (entry : Byte) (edge : Edge) (present : Bool) (token : Token) (s : State) : Result :=
  updateEntry entry (fun t => t.setA edge (.ofOperand present token)) s

/-- R146: RESET, in every state (R204). -/
def execReset (s : State) : Result := .next (s.resetBlock.setResult .ok)

end Sys2Proof.Machine
end

