-- ==== Sys2Proof/Machine/Debounce.lean ====
section
/-! DEFINITION. The Debounce Engine (40_debounce_engine.md). -/

namespace Sys2Proof.Machine

/-- R100: the four lines in the order written, each reading the values left by the lines before it (D3, C1). The value
returned is the new `RAW`. -/
def State.debounce (s : State) (sample : Word) : State :=
  let d := sample ^^^ s.raw
  let c1 := (s.c1 ^^^ s.c0) &&& d
  let c0 := ~~~s.c0 &&& d
  let raw := s.raw ^^^ (c0 &&& c1)
  { s with c1 := c1, c0 := c0, raw := raw, delta := d }

/-- R24: the count of lane `i`, k = 2*C1[i] + C0[i]. -/
def State.laneCount (s : State) (i : Nat) : Nat := 2 * (s.c1.getLsbD i).toNat + (s.c0.getLsbD i).toNat

end Sys2Proof.Machine
end

