-- ==== Sys2Proof/Machine/Edges.lean ====
section
/-! DEFINITION. The Edge Detector (41_edge_detector.md). -/

namespace Sys2Proof.Machine

/-- R120: the rising mask of `Edges(cur, prev)`. -/
def risingEdges (cur prev : Word) : Word := cur &&& ~~~prev

/-- R120: the falling mask of `Edges(cur, prev)`. -/
def fallingEdges (cur prev : Word) : Word := ~~~cur &&& prev

/-- R122: `Edges(RAW, LAST)`, latched in RISING and FALLING. -/
def State.latchEdges (s : State) : State :=
  { s with rising := risingEdges s.raw s.last, falling := fallingEdges s.raw s.last }

end Sys2Proof.Machine
end

