-- ==== Sys2Proof/Machine/Tick.lean ====
section
/-! DEFINITION. TICK and ACK (43_tick_dispatch.md). -/

namespace Sys2Proof.Machine

/-- R170, R171: one sample, the Debounce Engine, the Edge Detector against LAST, RESULT <- OK. -/
def State.sampleAndLatch (s : State) : State :=
  ((s.drawSample.debounce s.sampleValue).latchEdges).setResult .ok

/-- R170, R172: with no edge LAST takes RAW and the tick is complete; otherwise the walk starts at (0, RISE). -/
def State.dispatchEdges (s : State) : State :=
  if s.rising = 0 ∧ s.falling = 0 then { s with last := s.raw } else s.walkFrom ⟨0, .rise⟩

/-- R170: TICK. -/
def execTick (s : State) : Result :=
  unlessFaulted s <|
    if s.dispatching then raiseFault .reentrantTick s
    else .next s.sampleAndLatch.dispatchEdges

/-- R177: ACK of the pending event: a raised handler aborts the walk, a returned one continues it after CURSOR. -/
def State.acknowledge (s : State) (raised : Bool) : State :=
  if raised then (s.note (.acked s.event raised)).abort
  else ((s.note (.acked s.event raised)).setResult .ok).walkFrom s.cursor.pos.succ

/-- R177: ACK. -/
def execAck (raised : Bool) (s : State) : Result :=
  unlessFaulted s <|
    if s.dispatching then .next (s.acknowledge raised) else reject .notDispatching s

end Sys2Proof.Machine
end

