-- ==== Sys2Proof/Machine/Dispatch.lean ====
section
/-! DEFINITION. One arm per instruction: each calls its own meaning. -/

namespace Sys2Proof.Machine

def exec (i : Instr) (s : State) : Host.Outcome State Fault Refusal :=
  match i with
  | .tick => Sys2Proof.Machine.execTick s
  | .register pin => Sys2Proof.Machine.execRegister pin s
  | .seth entry edge present token => Sys2Proof.Machine.execSeth entry edge present token s
  | .seta entry edge present token => Sys2Proof.Machine.execSeta entry edge present token s
  | .ack raised => Sys2Proof.Machine.execAck raised s
  | .reset => Sys2Proof.Machine.execReset s

end Sys2Proof.Machine
end

