-- ==== Sys2Proof/Machine/Window.lean ====
section
/-! DEFINITION. The register window (20_memory.md R50 to R59): a view of the registers, not a
memory. Log 9. -/

namespace Sys2Proof.Machine

/-- The registers of the window (R51). -/
inductive Reg where
  | id
  | cmd
  | status
  | rawState
  | counter0
  | counter1
  | lastState
  | delta
  | rising
  | falling
  | event
  | config
  | entryPin (i : Nat)
  | entryRise (i : Nat)
  | entryFall (i : Nat)
deriving DecidableEq, Repr

/-- R51: the word of entry `i` at byte `k` of its 16 bytes; the last word is reserved. -/
def entryReg (i k : Nat) : Option Reg :=
  if k = 0x0 then some (.entryPin i)
  else if k = 0x4 then some (.entryRise i)
  else if k = 0x8 then some (.entryFall i)
  else none

/-- R51: the registers below 0x030 and their byte offsets. -/
def controlMap : List (Nat × Reg) :=
  [(0x000, .id), (0x004, .cmd), (0x008, .status), (0x00C, .rawState), (0x010, .counter0), (0x014, .counter1),
   (0x018, .lastState), (0x01C, .delta), (0x020, .rising), (0x024, .falling), (0x028, .event), (0x02C, .config)]

/-- R51: the register at a byte offset below 0x100; `none` is a reserved offset. -/
def controlReg (off : Nat) : Option Reg := controlMap.lookup off

/-- R51: the register at a 4-aligned byte offset; `none` is a reserved offset. Entry `i` has its 16 bytes at
0x100 + 16*i, 0 ≤ i ≤ 31. -/
def regAt (off : Nat) : Option Reg :=
  if off < 0x100 then controlReg off
  else if off < 0x300 then entryReg ((off - 0x100) / 16) ((off - 0x100) % 16)
  else none

/-- R34: the constant of the ID register, ASCII "BTN1". -/
def idWord : Word := 0x42544E31

/-- R55: CONFIG = ABORT_COMMITS_LAST [24], TOKEN_BITS [23:16], MAX_BUTTONS [15:8], W [7:0]. -/
def configWord (p : Config.Params) : Word :=
  0#7 ++ BitVec.ofBool p.abortCommitsLast ++ 8#8 ++ BitVec.ofNat 8 p.maxButtons ++ BitVec.ofNat 8 W

/-- R51, R54: an entry's word; for i ≥ MAX_BUTTONS it is reserved and reads 0. -/
def entryRead (s : State) (i : Nat) (w : Word) : Word := if s.hasEntry i then w else 0

/-- R51 to R55: the value a register reads as. CMD reads 0; EVENT reads 0 when DISPATCHING = 0 (R53). Log 13. -/
def State.readReg (s : State) : Reg → Word
  | .id => idWord
  | .cmd => 0
  | .status => s.statusWord
  | .rawState => s.raw
  | .counter0 => s.c0
  | .counter1 => s.c1
  | .lastState => s.last
  | .delta => s.delta
  | .rising => s.rising
  | .falling => s.falling
  | .event => if s.dispatching then s.event else 0
  | .config => configWord s.params
  | .entryPin i => entryRead s i (entryPinWord (decide (i < s.count.toNat)) (s.entry i))
  | .entryRise i => entryRead s i (entryEdgeWord (s.entry i) .rise)
  | .entryFall i => entryRead s i (entryEdgeWord (s.entry i) .fall)

/-- R51, R59: the word at a 4-aligned offset; a reserved offset reads 0. -/
def State.readWindow (s : State) (off : Offset) : Word :=
  match regAt off.toNat with
  | some r => s.readReg r
  | none => 0

/-- R56: an access is 32 bits wide at a multiple of 4. Log 14. -/
def legalAccess (off : Offset) (bytes : Nat) : Bool := bytes == 4 && off.toNat % 4 == 0

/-- R56, R58: a bus read: the word, or a bus error; no element of R20 changes. -/
def busRead (off : Offset) (bytes : Nat) (s : State) : Result :=
  if legalAccess off bytes then .next (s.note (.readData off (s.readWindow off))) else .next (s.note .busError)

/-- R51: the offset of CMD. -/
def cmdOffset : Offset := 0x004

end Sys2Proof.Machine
end

