-- ==== Sys2Proof/Machine/Bus.lean ====
section
/-! DEFINITION. How a command word reaches its meaning (20_memory.md R60, 60_exceptions.md R204), and what each act of the
outside world does to the block. -/

namespace Sys2Proof.Machine

/-- R77, R204: an illegal word: FAULTED while FAULT = 1, else ILLEGAL. -/
def illegalWord (s : State) : Result := unlessFaulted s (reject .illegal s)

/-- R204: `Execute(v)`. The exact RESET word runs in every state and the FAULT check precedes ILLEGAL: every meaning but
RESET's begins with that check, and so does `illegalWord`. Log 20. -/
def executeWord (v : Word) (s : State) : Result :=
  match decode v with
  | .ok i => exec i s
  | .error _ => illegalWord s

/-- R56, R59, R60: a bus write: a bus error, a command word, or ignored. While `rst` is asserted a write to CMD is
ignored (R230). -/
def busWrite (off : Offset) (bytes : Nat) (value : Word) (s : State) : Result :=
  if legalAccess off bytes then
    if off = cmdOffset ∧ s.rst = false then executeWord value s else .next s
  else .next (s.note .busError)

/-- R67, U2: only the one host may access the window; the model refuses any other context. -/
def onlyOwner (ctx : Context) (run : Result) : Result :=
  match ctx with
  | .owner => run
  | .other => .refused .secondContext

/-- R230: the `rst` input takes a level; asserting it resets the block. -/
def State.driveRst (s : State) (level : Bool) : State :=
  if level then { s with rst := true }.resetBlock else { s with rst := false }

/-- One act of the outside world. -/
def hostAct (a : HostAct) (s : State) : Result :=
  match a with
  | .read ctx off bytes => onlyOwner ctx (busRead off bytes s)
  | .write ctx off bytes value => onlyOwner ctx (busWrite off bytes value s)
  | .setRst level => .next (s.driveRst level)
  | .setSample value => .next { s with sampleNext := some value }

/-- R230: while `rst` is asserted the block holds its state at the reset values. -/
def State.held (s : State) : State := if s.rst then s.resetBlock else s

/-- The next pending act, or none: then the block is idle, and idling changes nothing (R216). -/
def serveBus (s : State) : Result :=
  match s.bus with
  | [] => .next s.held
  | a :: rest => hostAct a ({ s with bus := rest }.held)

/-- The host's write of a command word to CMD (R60). -/
def commandWrite (v : Word) : HostAct := .write .owner cmdOffset 4 v

/-- `s` with `v` as the next command word the block takes, `rst` released so that it is taken. -/
def State.withCommand (s : State) (v : Word) : State := { s with bus := commandWrite v :: s.bus, rst := false }

end Sys2Proof.Machine
end

