-- ==== Sys2Proof/Machine/Step.lean ====
section
/-! DEFINITION. The step of the machine, and the placing of one instruction as the next to run. -/

namespace Sys2Proof.Machine

/-- One step: the block serves the host's next pending act (R61), or idles (R216). Log 17. -/
def step (s : State) : Host.Outcome State Fault Refusal := serveBus s

/-- `s` with the instruction word of `nbits` bits, every bit above them 0, pending at CMD as the next act (R60). Log 3. -/
def State.withFetchWord (s : State) (nbits w : Nat) : State := s.withCommand (BitVec.ofNat 32 (w % 2 ^ nbits))

end Sys2Proof.Machine
end

