-- ==== Sys2Proof/Safety.lean ====
section
/-! DEFINITION. What claims are stated in: the groups of state that a frame keeps, the invariants of 10_state.md R37 and
of the fault and event state, and what a safe and a finished run is. -/

namespace Sys2Proof.Machine

/-- The debounce state and the masks (R21 to R27) are the same. -/
structure SameDebounce (s t : State) : Prop where
  raw : t.raw = s.raw
  c0 : t.c0 = s.c0
  c1 : t.c1 = s.c1
  last : t.last = s.last
  delta : t.delta = s.delta
  rising : t.rising = s.rising
  falling : t.falling = s.falling

/-- The button table (R28, R29) is the same. -/
structure SameTable (s t : State) : Prop where
  count : t.count = s.count
  table : t.table = s.table

/-- The dispatch state (R31) is the same. -/
structure SameWalk (s t : State) : Prop where
  dispatching : t.dispatching = s.dispatching
  cursor : t.cursor = s.cursor
  event : t.event = s.event

/-- The fault state (R33) is the same. -/
structure SameFault (s t : State) : Prop where
  fault : t.fault = s.fault
  faultCode : t.faultCode = s.faultCode

/-- The parameters, the level of `rst` and the pending acts are the same. -/
structure SameOutside (s t : State) : Prop where
  params : t.params = s.params
  rst : t.rst = s.rst
  bus : t.bus = s.bus

/-- No sample was read between the two states (R171, D33). -/
structure SameSampler (s t : State) : Prop where
  sampleNext : t.sampleNext = s.sampleNext
  draws : t.draws = s.draws

/-- Exactly one sample was read between the two states (R171). -/
structure OneSample (s t : State) : Prop where
  sampleNext : t.sampleNext = none
  draws : t.draws = s.draws + 1

/-- A position of the walk that matches (R173: e < COUNT; R174). -/
abbrev State.MatchesAt (s : State) (p : Pos) : Prop := p.entry < s.count.toNat ∧ s.matches p = true

/-- `p` is the first matching position whose place in the walk order is `n` or later (R173). -/
def State.FirstMatchFrom (s : State) (n : Nat) (p : Pos) : Prop :=
  s.MatchesAt p ∧ n ≤ p.rank ∧ ∀ q : Pos, n ≤ q.rank → q.rank < p.rank → ¬ s.MatchesAt q

/-- No position matches at the place `n` of the walk order or later (R173). -/
def State.NoMatchFrom (s : State) (n : Nat) : Prop := ∀ q : Pos, n ≤ q.rank → ¬ s.MatchesAt q

/-- `t` waits at position `p` with that position's event latched (R175), and `LAST` as in `s`. -/
structure Presents (s t : State) (p : Pos) : Prop where
  dispatching : t.dispatching = true
  cursor : t.cursor = p.cursor
  event : t.event = eventWord p (s.entry p.entry)
  last : t.last = s.last

/-- `t` is idle with no event, and `LAST` has taken `RAW` (R178). That `CURSOR` keeps its value is log 11. -/
structure Finished (s t : State) : Prop where
  dispatching : t.dispatching = false
  cursor : t.cursor = s.cursor
  event : t.event = 0
  last : t.last = t.raw

/-- R37 item 2 for one optional token: an absent token is 0. -/
def OptToken.Canonical (o : OptToken) : Prop := o.present = false → o.token = 0

/-- R37 items 1 to 5, with R5's bounds of the parameters. -/
structure BlockInv (s : State) : Prop where
  params : s.params.Legal
  countFits : s.count.toNat ≤ s.params.maxButtons
  pinsInRange : ∀ i, i < s.count.toNat → (s.entry i).pin.toNat < W
  unusedZero : ∀ i, s.count.toNat ≤ i → s.entry i = Entry.zero
  tokensCanonical : ∀ i g, ((s.entry i).h g).Canonical ∧ ((s.entry i).a g).Canonical
  edgesDisjoint : s.rising &&& s.falling = 0
  idleEvent : s.dispatching = false → s.event = 0
  cursorRegistered : s.dispatching = true → s.cursor.entry.toNat < s.count.toNat
  cursorEdge : s.dispatching = true →
    laneBit (s.edgeMask s.cursor.phase) (s.entry s.cursor.entry.toNat).pin = true

/-- The fault state (R33, R203, R205, R206): FAULT_CODE is NONE exactly when FAULT = 0; both faults arise while a walk
waits, and then the walk stays and every result is FAULTED. -/
structure FaultInv (s : State) : Prop where
  code : s.fault = false ↔ s.faultCode = .none
  walk : s.fault = true → s.dispatching = true
  result : s.fault = true → s.result = .faulted

/-- The pending event names the position CURSOR stands at (R53, R175): VALID, ENTRY, EDGE and PIN. -/
def EventInv (s : State) : Prop :=
  s.dispatching = true →
    s.event.getLsbD 31 = true ∧ s.event.extractLsb' 26 5 = s.cursor.entry
      ∧ s.event.getLsbD 25 = bitOfEdge s.cursor.phase
      ∧ s.event.extractLsb' 0 8 = (s.entry s.cursor.entry.toNat).pin

/-- R230: while `rst` is asserted the block holds its state at the reset values. -/
def HeldInv (s : State) : Prop := s.rst = true → s.resetBlock = s

/-- A safe state: the block is not in the fault state (R200 item 2). -/
def State.Safe (s : State) : Prop := s.fault = false

/-- A finished run (R189, R200): nothing pending, no walk waiting, no fault; a fault is never final. -/
def State.Final (s : State) : Prop := s.bus = [] ∧ s.dispatching = false ∧ s.fault = false

/-- The two acts that reset the block (R230): the RESET word written to CMD, and `rst` asserted. -/
def HostAct.Resets (a : HostAct) : Prop := a = commandWrite 0xF0000000 ∨ a = .setRst true

/-- Whether an item of the trace is a command's RESULT. -/
def TraceItem.isResult : TraceItem → Bool
  | .result _ => true
  | _ => false

/-- One lane of the engine as (r, k) (R102): an agreeing sample clears the count; a disagreeing one counts up modulo 4
and flips the lane when the count becomes 3. -/
def laneStep (lane : Bool × Nat) (sample : Bool) : Bool × Nat :=
  if sample = lane.1 then (lane.1, 0)
  else if (lane.2 + 1) % 4 = 3 then (!lane.1, 3)
  else (lane.1, (lane.2 + 1) % 4)

/-- Lane `i` of a state as (r, k) (R24, R102). -/
def State.lane (s : State) (i : Nat) : Bool × Nat := (s.raw.getLsbD i, s.laneCount i)

/-- Commands in sequence, as the expansion of a pseudo-instruction runs (R81). -/
def execAll : List Instr → State → Result
  | [], s => .next s
  | i :: is, s =>
    match exec i s with
    | .next t => execAll is t
    | .fault r => .fault r
    | .refused r => .refused r

/-- The optional token of an operand of BUTTON (R81). -/
def OptToken.ofOption : Option Token → OptToken
  | some t => ⟨true, t⟩
  | none => OptToken.absent

end Sys2Proof.Machine
end

