-- ==== Sys2Proof/Certificates/Slice0/Obligations.lean ====
section
/-! DEFINITION. The statements for the provers, from the numbered rules of spec/. -/

open Sys2Proof Sys2Proof.Machine

/-! ## Encoding -/

/-- R76, R80, R82: decoding the word of a well-formed instruction gives the instruction back. -/
def Obligations.DecodeInvertsEncode : Prop :=
  ∀ i : Instr, i.WellFormed → decode (encode i) = .ok i

/-- R75, R78: what is decoded is well formed, and its word is the one decoded, but for the TOKEN bits that SETH and SETA
ignore when PRESENT = 0. -/
def Obligations.DecodedWordReencodes : Prop :=
  ∀ (v : Word) (i : Instr), decode v = .ok i →
    i.WellFormed ∧
      encode i =
        if (v.extractLsb' 28 4 = 0x3 ∨ v.extractLsb' 28 4 = 0x4) ∧ v.getLsbD 8 = false then v &&& 0xFFFFFF00 else v

/-- R75: operand assembly. -/
def Obligations.DecodedOperandsAreBitSlices : Prop :=
  ∀ v : Word,
    (∀ pin, decode v = .ok (.register pin) → pin = v.extractLsb' 0 8) ∧
    (∀ e g p t, decode v = .ok (.seth e g p t) ∨ decode v = .ok (.seta e g p t) →
      e = v.extractLsb' 16 8 ∧ (g = .fall ↔ v.getLsbD 15 = true) ∧ p = v.getLsbD 8 ∧
        (p = true → t = v.extractLsb' 0 8) ∧ (p = false → t = 0)) ∧
    (∀ r, decode v = .ok (.ack r) → r = v.getLsbD 0)

/-- R76: a word is the instruction of a row exactly when `(w AND mask) = match`. -/
def Obligations.WordIsInstructionOfRowExactlyByMask : Prop :=
  ∀ v : Word,
    (decode v = .ok .tick ↔ v &&& 0xFFFFFFFF = 0x10000000) ∧
    ((∃ pin, decode v = .ok (.register pin)) ↔ v &&& 0xFFFFFF00 = 0x20000000) ∧
    ((∃ e g p t, decode v = .ok (.seth e g p t)) ↔ v &&& 0xFF007E00 = 0x30000000) ∧
    ((∃ e g p t, decode v = .ok (.seta e g p t)) ↔ v &&& 0xFF007E00 = 0x40000000) ∧
    ((∃ r, decode v = .ok (.ack r)) ↔ v &&& 0xFFFFFFFE = 0x50000000) ∧
    (decode v = .ok .reset ↔ v &&& 0xFFFFFFFF = 0xF0000000)

/-- R77: a word that matches no row, written to CMD, is rejected with ILLEGAL and has no other effect, unless FAULT =
1, and then it is ignored with FAULTED. `trace` is the model's own field (log 10). -/
def Obligations.IllegalWordIsRejected : Prop :=
  ∀ (v : Word) (s : State) (rest : List HostAct),
    (∀ r ∈ opcodeMap, v &&& r.mask ≠ r.matchBits) → s.rst = false → s.bus = commandWrite v :: rest →
      (s.fault = false →
        step s = .next { s with bus := rest, result := .illegal, trace := .result .illegal :: s.trace }) ∧
      (s.fault = true →
        step s = .next { s with bus := rest, result := .faulted, trace := .result .faulted :: s.trace })

/-- Words written out from R76 and L2.3 decode to the instructions they stand for. -/
def Obligations.WrittenOutWordsDecode : Prop :=
  decode 0x10000000 = .ok .tick ∧ decode 0x200000FF = .ok (.register 255) ∧
  decode 0x3000810A = .ok (.seth 0 .fall true 0x0A) ∧ decode 0x300080AB = .ok (.seth 0 .fall false 0) ∧
  decode 0x40FF8100 = .ok (.seta 255 .fall true 0) ∧ decode 0x50000001 = .ok (.ack true) ∧
  decode 0xF0000000 = .ok .reset ∧ decode 0x20000100 = .error .reservedBits ∧
  decode 0x60000000 = .error .unassignedOpcode

/-! ## The Debounce Engine and the Edge Detector -/

/-- R102: the lane state machine. -/
def Obligations.EngineFollowsLaneStateMachine : Prop :=
  ∀ (s : State) (sample : Word) (i : Nat), i < W →
    let t := s.debounce sample
    (sample.getLsbD i = s.raw.getLsbD i → t.laneCount i = 0 ∧ t.raw.getLsbD i = s.raw.getLsbD i) ∧
    (sample.getLsbD i ≠ s.raw.getLsbD i →
      t.laneCount i = (s.laneCount i + 1) % 4 ∧
        t.raw.getLsbD i = (s.raw.getLsbD i ^^ decide (t.laneCount i = 3)))

/-- R101: the new bits of a lane depend on the old bits of that lane and its sample bit alone. -/
def Obligations.EngineLanesAreIndependent : Prop :=
  ∀ (s t : State) (a b : Word) (i : Nat), i < W →
    a.getLsbD i = b.getLsbD i → s.raw.getLsbD i = t.raw.getLsbD i → s.c0.getLsbD i = t.c0.getLsbD i →
    s.c1.getLsbD i = t.c1.getLsbD i →
      (s.debounce a).raw.getLsbD i = (t.debounce b).raw.getLsbD i ∧
      (s.debounce a).c0.getLsbD i = (t.debounce b).c0.getLsbD i ∧
      (s.debounce a).c1.getLsbD i = (t.debounce b).c1.getLsbD i ∧
      (s.debounce a).delta.getLsbD i = (t.debounce b).delta.getLsbD i

/-- R102 over a whole sequence of samples: each lane of the engine is one run of the lane state machine `laneStep`. -/
def Obligations.EngineRunRefinesLaneMachine : Prop :=
  ∀ (samples : List Word) (s : State) (i : Nat), i < W →
    (samples.foldl State.debounce s).lane i = (samples.map fun v => v.getLsbD i).foldl laneStep (s.lane i)

/-- R103: from count 0, RAW[i] flips on the third sample if all three disagree with it, not before, and not otherwise; a
sample that agrees leaves the count at 0. -/
def Obligations.AcceptanceTakesThreeSamples : Prop :=
  ∀ (s : State) (a b c : Word) (i : Nat), i < W → s.laneCount i = 0 →
    ((s.debounce a).raw.getLsbD i = s.raw.getLsbD i) ∧
    (((s.debounce a).debounce b).raw.getLsbD i = s.raw.getLsbD i) ∧
    ((((s.debounce a).debounce b).debounce c).raw.getLsbD i ≠ s.raw.getLsbD i ↔
      a.getLsbD i ≠ s.raw.getLsbD i ∧ b.getLsbD i ≠ s.raw.getLsbD i ∧ c.getLsbD i ≠ s.raw.getLsbD i) ∧
    (a.getLsbD i = s.raw.getLsbD i → (s.debounce a).laneCount i = 0) ∧
    (b.getLsbD i = s.raw.getLsbD i → ((s.debounce a).debounce b).laneCount i = 0) ∧
    (c.getLsbD i = s.raw.getLsbD i → (((s.debounce a).debounce b).debounce c).laneCount i = 0)

/-- R104: an agreeing sample clears the lane. -/
def Obligations.AgreeingSampleClearsLane : Prop :=
  ∀ (s : State) (v : Word) (i : Nat), i < W → v.getLsbD i = s.raw.getLsbD i →
    (s.debounce v).c0.getLsbD i = false ∧ (s.debounce v).c1.getLsbD i = false ∧
      (s.debounce v).raw.getLsbD i = s.raw.getLsbD i

/-- R105: from count 3, the reverse flip comes on the fourth consecutive sample that disagrees. -/
def Obligations.RevertAfterCommitTakesFourSamples : Prop :=
  ∀ (s : State) (a b c d : Word) (i : Nat), i < W → s.laneCount i = 3 →
    a.getLsbD i ≠ s.raw.getLsbD i → b.getLsbD i ≠ s.raw.getLsbD i → c.getLsbD i ≠ s.raw.getLsbD i →
    d.getLsbD i ≠ s.raw.getLsbD i →
      (s.debounce a).laneCount i = 0 ∧
      (s.debounce a).raw.getLsbD i = s.raw.getLsbD i ∧
      ((s.debounce a).debounce b).raw.getLsbD i = s.raw.getLsbD i ∧
      (((s.debounce a).debounce b).debounce c).raw.getLsbD i = s.raw.getLsbD i ∧
      ((((s.debounce a).debounce b).debounce c).debounce d).raw.getLsbD i ≠ s.raw.getLsbD i

/-- R109: the lanes that flip are exactly `C0' AND C1'`, and they are left at count 3. -/
def Obligations.FlipMaskIsBothCounters : Prop :=
  ∀ (s : State) (v : Word),
    s.raw ^^^ (s.debounce v).raw = (s.debounce v).c0 &&& (s.debounce v).c1 ∧
    ∀ i, i < W → (s.debounce v).raw.getLsbD i ≠ s.raw.getLsbD i → (s.debounce v).laneCount i = 3

/-- R121: the edge laws. -/
def Obligations.EdgeLaws : Prop :=
  ∀ cur prev : Word,
    risingEdges cur prev &&& fallingEdges cur prev = 0 ∧
    risingEdges cur prev ||| fallingEdges cur prev = cur ^^^ prev ∧
    risingEdges cur prev &&& prev = 0 ∧ fallingEdges cur prev &&& cur = 0

/-! ## TICK, ACK and the walk -/

/-- R100, R120, R122, R170, R171: a TICK with no walk waiting completes; it reads one sample and leaves the engine's
and the edge detector's values; LAST takes RAW unless an event is presented; the table and the fault state are
unchanged. `sampleNext` and `draws` are the model's own fields (log 2). -/
def Obligations.TickSamplesDebouncesAndLatches : Prop :=
  ∀ s : State, s.fault = false → s.dispatching = false →
    ∃ t, exec .tick s = .next t ∧
      t.delta = s.sampleValue ^^^ s.raw ∧
      t.c1 = (s.c1 ^^^ s.c0) &&& t.delta ∧
      t.c0 = ~~~s.c0 &&& t.delta ∧
      t.raw = s.raw ^^^ (t.c0 &&& t.c1) ∧
      t.rising = t.raw &&& ~~~s.last ∧
      t.falling = ~~~t.raw &&& s.last ∧
      t.result = .ok ∧
      t.last = (if t.dispatching then s.last else t.raw) ∧
      SameTable s t ∧ SameFault s t ∧ OneSample s t ∧ SameOutside s t

/-- R170, R172 to R175, R178: after a TICK the first matching position in walk order is presented; where none matches,
the walk finishes with no event. `trace` is the model's own field (log 10), and that CURSOR keeps its value when the walk
finishes is the model's choice (log 11, V4). -/
def Obligations.TickPresentsFirstMatch : Prop :=
  ∀ s t : State, s.fault = false → s.dispatching = false → s.event = 0 → exec .tick s = .next t →
    (∀ p, t.FirstMatchFrom 0 p →
      Presents s t p ∧ t.trace = .presented (eventWord p (s.entry p.entry)) :: .result .ok :: s.trace) ∧
    (t.NoMatchFrom 0 → Finished s t ∧ t.trace = .result .ok :: s.trace)

/-- R124: when LAST = RAW before a TICK, its edges are the lanes that flipped, rising those that committed 0 → 1 and falling
those that committed 1 → 0. -/
def Obligations.TickEdgesAreTheFlipsWhenLastIsRaw : Prop :=
  ∀ s t : State, s.fault = false → s.dispatching = false → s.last = s.raw → exec .tick s = .next t →
    t.rising ||| t.falling = t.c0 &&& t.c1 ∧
    t.rising = (t.c0 &&& t.c1) &&& ~~~s.raw ∧ t.falling = (t.c0 &&& t.c1) &&& s.raw

/-- R175, R177, R178: ACK ok completes: it goes on to the first matching position after CURSOR, or finishes. Nothing
else changes, but LAST at the end of the walk. `sampleNext`, `draws` and `trace` are the model's own fields (log 2,
log 10), and that CURSOR keeps its value when the walk finishes is the model's choice (log 11, V4). -/
def Obligations.AckOkResumesWalkAfterCursor : Prop :=
  ∀ s : State, s.fault = false → s.dispatching = true →
    ∃ t, exec (.ack false) s = .next t ∧ t.result = .ok ∧
      t.raw = s.raw ∧ t.c0 = s.c0 ∧ t.c1 = s.c1 ∧ t.delta = s.delta ∧ t.rising = s.rising ∧ t.falling = s.falling ∧
      SameTable s t ∧ SameFault s t ∧ SameSampler s t ∧ SameOutside s t ∧
      (∀ p, s.FirstMatchFrom (s.cursor.pos.rank + 1) p →
        Presents s t p ∧
          t.trace = .presented (eventWord p (s.entry p.entry)) :: .result .ok :: .acked s.event false :: s.trace) ∧
      (s.NoMatchFrom (s.cursor.pos.rank + 1) →
        Finished s t ∧ t.trace = .result .ok :: .acked s.event false :: s.trace)

/-- R179: ACK raised completes: the walk is aborted, LAST takes RAW only when ABORT_COMMITS_LAST, and the rest of the
state is kept. `trace` is the model's own field (log 10), and that CURSOR keeps its value after the abort is the model's
choice (log 11, V4). -/
def Obligations.AckRaisedAbortsWalk : Prop :=
  ∀ s : State, s.fault = false → s.dispatching = true →
    exec (.ack true) s = .next
      { s with
        dispatching := false
        event := 0
        last := if s.params.abortCommitsLast then s.raw else s.last
        result := .handlerRaised
        trace := .result .handlerRaised :: .acked s.event true :: s.trace }

/-- R177: ACK with no event pending is rejected with NOT_DISPATCHING and has no other effect. `trace` is the model's
own field (log 10). -/
def Obligations.AckWithoutEventIsRejected : Prop :=
  ∀ (s : State) (raised : Bool), s.fault = false → s.dispatching = false →
    exec (.ack raised) s = .next
      { s with result := .notDispatching, trace := .result .notDispatching :: s.trace }

/-- R180: the events of one walk come in walk order: while a walk goes on, each ACK moves CURSOR strictly forward in the
order (0, RISE), (0, FALL), (1, RISE), … -/
def Obligations.WalkOrderIsStrictlyIncreasing : Prop :=
  ∀ (s t : State) (raised : Bool), BlockInv s → s.dispatching = true → s.fault = false →
    exec (.ack raised) s = .next t → t.dispatching = true → s.cursor.pos.rank < t.cursor.pos.rank

/-- R187, R37 item 6: while a walk waits no command but RESET writes RAW, C0, C1, DELTA, RISING, FALLING or COUNT, and
LAST is written only when the walk ends. -/
def Obligations.WalkFreezesDebounceState : Prop :=
  ∀ (i : Instr) (s t : State), s.dispatching = true → i ≠ .reset → exec i s = .next t →
    t.raw = s.raw ∧ t.c0 = s.c0 ∧ t.c1 = s.c1 ∧ t.delta = s.delta ∧ t.rising = s.rising ∧ t.falling = s.falling ∧
      t.count = s.count ∧ (t.dispatching = true → t.last = s.last)

/-- R182: a handler set during a walk on a later position whose pin bit is set in the mask adds an event: when no match
lies between, the next ACK ok presents it. -/
def Obligations.HandlerSetDuringWalkAddsEvent : Prop :=
  ∀ (s t u : State) (e : Byte) (g : Edge) (tok : Token),
    BlockInv s → s.fault = false → s.dispatching = true → e.toNat < s.count.toNat →
    s.cursor.pos.rank < (Pos.mk e.toNat g).rank →
    laneBit (s.edgeMask g) (s.entry e.toNat).pin = true →
    (∀ q : Pos, s.cursor.pos.rank < q.rank → q.rank < (Pos.mk e.toNat g).rank → ¬ s.MatchesAt q) →
    exec (.seth e g true tok) s = .next t → exec (.ack false) t = .next u →
      t.event = s.event ∧ u.dispatching = true ∧ u.cursor = (Pos.mk e.toNat g).cursor ∧
        u.event = eventWord ⟨e.toNat, g⟩ ((s.entry e.toNat).setH g ⟨true, tok⟩)

/-- R185: with ABORT_COMMITS_LAST = false, the tick after an aborted one computes its edges against the LAST from before
the aborted tick, so a lane that was an edge and has not committed back is an edge again. -/
def Obligations.AbortedEdgesReappear : Prop :=
  ∀ s t u : State, s.fault = false → s.dispatching = true → s.params.abortCommitsLast = false →
    exec (.ack true) s = .next t → exec .tick t = .next u →
      u.rising = u.raw &&& ~~~s.last ∧ u.falling = ~~~u.raw &&& s.last ∧
      ∀ i, i < W → u.raw.getLsbD i = s.raw.getLsbD i →
        u.rising.getLsbD i = (s.raw &&& ~~~s.last).getLsbD i ∧
        u.falling.getLsbD i = (~~~s.raw &&& s.last).getLsbD i

/-! ## REGISTER, SETH, SETA, RESET -/

/-- R141, R142: REGISTER of a valid pin with room in the table completes: it appends the entry and primes RAW and LAST
with one sample; the counters, DELTA, the masks and every other entry are unchanged. `sampleNext`, `draws` and `trace`
are the model's own fields (log 2, log 10). -/
def Obligations.RegisterAppendsAndPrimes : Prop :=
  ∀ (s : State) (pin : Byte), s.fault = false → s.dispatching = false → pin.toNat < 32 →
    s.count.toNat < s.params.maxButtons → s.params.Legal →
    ∃ t, exec (.register pin) s = .next t ∧
      t.count.toNat = s.count.toNat + 1 ∧
      t.entry s.count.toNat = ⟨pin, .absent, .absent, .absent, .absent⟩ ∧
      (∀ i, i ≠ s.count.toNat → t.entry i = s.entry i) ∧
      t.raw = s.sampleValue ∧ t.last = s.sampleValue ∧
      t.c0 = s.c0 ∧ t.c1 = s.c1 ∧ t.delta = s.delta ∧ t.rising = s.rising ∧ t.falling = s.falling ∧
      t.result = .ok ∧ t.trace = .result .ok :: s.trace ∧
      SameWalk s t ∧ SameFault s t ∧ OneSample s t ∧ SameOutside s t

/-- R141, R204: REGISTER is rejected with PIN_RANGE for a pin of 32 or more, and with TABLE_FULL for a valid pin when
COUNT = MAX_BUTTONS; nothing else changes and no sample is read. `trace` is the model's own field (log 10). -/
def Obligations.RegisterRejections : Prop :=
  ∀ (s : State) (pin : Byte), s.fault = false → s.dispatching = false →
    (32 ≤ pin.toNat → exec (.register pin) s = .next
      { s with result := .pinRange, trace := .result .pinRange :: s.trace }) ∧
    (pin.toNat < 32 → s.count.toNat = s.params.maxButtons → exec (.register pin) s = .next
      { s with result := .tableFull, trace := .result .tableFull :: s.trace })

/-- R143 item 3: counts survive priming: a lane at count 2 whose next sample, whatever the environment chooses for it,
disagrees with the primed RAW commits on that one sample. `sampleNext` is the model's own field (log 2): the next sample
is `w` for `some w`, and the free value for `none`. -/
def Obligations.PrimedLaneAtCountTwoCommitsAtOnce : Prop :=
  ∀ (s t u : State) (pin : Byte) (i : Nat) (x : Option Word), i < W → s.laneCount i = 2 →
    exec (.register pin) s = .next t → t.result = .ok →
    ({ t with sampleNext := x } : State).sampleValue.getLsbD i ≠ t.raw.getLsbD i →
    exec .tick { t with sampleNext := x } = .next u →
      t.laneCount i = 2 ∧ u.raw.getLsbD i = ({ t with sampleNext := x } : State).sampleValue.getLsbD i ∧
        (u.rising ||| u.falling).getLsbD i = true

/-- R144, R145: SETH and SETA of a registered entry complete: the one field of the one entry takes (present, token),
an absent token being 0; everything else is unchanged but RESULT, also while a walk waits. `sampleNext`, `draws` and
`trace` are the model's own fields (log 2, log 10). -/
def Obligations.SetReplacesOneFieldOfOneEntry : Prop :=
  ∀ (s : State) (e : Byte) (g : Edge) (p : Bool) (tok : Token),
    s.fault = false → e.toNat < s.count.toNat → s.count.toNat ≤ s.params.maxButtons → s.params.Legal →
    (∃ t, exec (.seth e g p tok) s = .next t ∧
      (t.entry e.toNat).pin = (s.entry e.toNat).pin ∧
      (∀ k, (t.entry e.toNat).h k = if k = g then ⟨p, if p then tok else 0⟩ else (s.entry e.toNat).h k) ∧
      (∀ k, (t.entry e.toNat).a k = (s.entry e.toNat).a k) ∧
      (∀ j, j ≠ e.toNat → t.entry j = s.entry j) ∧
      t.count = s.count ∧ t.result = .ok ∧ t.trace = .result .ok :: s.trace ∧
      SameDebounce s t ∧ SameWalk s t ∧ SameFault s t ∧ SameSampler s t ∧ SameOutside s t) ∧
    (∃ t, exec (.seta e g p tok) s = .next t ∧
      (t.entry e.toNat).pin = (s.entry e.toNat).pin ∧
      (∀ k, (t.entry e.toNat).h k = (s.entry e.toNat).h k) ∧
      (∀ k, (t.entry e.toNat).a k = if k = g then ⟨p, if p then tok else 0⟩ else (s.entry e.toNat).a k) ∧
      (∀ j, j ≠ e.toNat → t.entry j = s.entry j) ∧
      t.count = s.count ∧ t.result = .ok ∧ t.trace = .result .ok :: s.trace ∧
      SameDebounce s t ∧ SameWalk s t ∧ SameFault s t ∧ SameSampler s t ∧ SameOutside s t)

/-- R144, R145: SETH and SETA of an entry of COUNT or more are rejected with BAD_ENTRY and have no other effect.
`trace` is the model's own field (log 10). -/
def Obligations.SetOfUnregisteredEntryIsRejected : Prop :=
  ∀ (s : State) (e : Byte) (g : Edge) (p : Bool) (tok : Token), s.fault = false → s.count.toNat ≤ e.toNat →
    exec (.seth e g p tok) s = .next { s with result := .badEntry, trace := .result .badEntry :: s.trace } ∧
    exec (.seta e g p tok) s = .next { s with result := .badEntry, trace := .result .badEntry :: s.trace }

/-- The model's choice (log 7): a write to a table entry that the implementation does not have (R28: i ≥ MAX_BUTTONS) stops
with `noSuchEntry`. It needs COUNT > MAX_BUTTONS, which `BlockInv` rules out (R37 item 1). -/
def Obligations.MissingTableEntryStops : Prop :=
  ∀ (s : State) (pin e : Byte) (g : Edge) (p : Bool) (tok : Token), s.fault = false →
    (s.dispatching = false → pin.toNat < 32 → s.params.maxButtons < s.count.toNat →
      exec (.register pin) s = .fault .noSuchEntry) ∧
    (e.toNat < s.count.toNat → s.params.maxButtons ≤ e.toNat →
      exec (.seth e g p tok) s = .fault .noSuchEntry ∧ exec (.seta e g p tok) s = .fault .noSuchEntry)

/-- R30: entries are only appended, by REGISTER; a pin never changes; handlers change only by SETH and arguments only by
SETA. -/
def Obligations.EntriesChangeOnlyByTheirCommands : Prop :=
  ∀ (i : Instr) (s t : State), BlockInv s → i ≠ .reset → exec i s = .next t →
    (t.count = s.count ∨ ((∃ pin, i = .register pin) ∧ t.count.toNat = s.count.toNat + 1)) ∧
    ∀ j, j < s.count.toNat →
      (t.entry j).pin = (s.entry j).pin ∧
      ((∀ e g p k, i ≠ .seth e g p k) → (t.entry j).h = (s.entry j).h) ∧
      ((∀ e g p k, i ≠ .seta e g p k) → (t.entry j).a = (s.entry j).a)

/-- R81: the expansion of BUTTON, with n = COUNT, leaves entry n with the pin and exactly the handlers and arguments
that are given. -/
def Obligations.ButtonExpansionBuildsEntry : Prop :=
  ∀ (s : State) (pin : Byte) (rise fall rargs fargs : Option Token),
    s.fault = false → s.dispatching = false → pin.toNat < 32 → s.count.toNat < s.params.maxButtons → s.params.Legal →
    ∃ t, execAll (pseudoButton s.count pin rise fall rargs fargs) s = .next t ∧
      t.entry s.count.toNat = ⟨pin, .ofOption rise, .ofOption fall, .ofOption rargs, .ofOption fargs⟩ ∧
      t.count.toNat = s.count.toNat + 1 ∧ t.result = .ok ∧ (∀ j, j ≠ s.count.toNat → t.entry j = s.entry j)

/-- R146, R230: RESET completes in every state, with every element of R20 at its reset value. What RESET keeps is the
outside world's: the model's choice (log 4). -/
def Obligations.ResetCommandRestoresResetValues : Prop :=
  ∀ s : State, exec .reset s = .next
    { State.resetWith s.params with
      rst := s.rst, sampleNext := s.sampleNext, draws := s.draws, bus := s.bus, trace := .result .ok :: s.trace }

/-! ## Reset, faults and the step -/

/-- R38: the reset values, for an implementation with any parameters; `State.reset` is the case of R5's defaults. -/
def Obligations.ResetValues : Prop :=
  ∀ p : Config.Params, let s := State.resetWith p
    s.raw = 0 ∧ s.c0 = 0 ∧ s.c1 = 0 ∧ s.last = 0 ∧ s.delta = 0 ∧ s.rising = 0 ∧ s.falling = 0 ∧ s.count = 0 ∧
    (∀ i, s.entry i = ⟨0, ⟨false, 0⟩, ⟨false, 0⟩, ⟨false, 0⟩, ⟨false, 0⟩⟩) ∧
    s.dispatching = false ∧ s.cursor = ⟨0, .rise⟩ ∧ s.event = 0 ∧ s.result = .ok ∧ s.fault = false ∧
    s.faultCode = .none ∧ s.readWindow 0x000 = 0x42544E31 ∧
    s.readWindow 0x02C = 0#7 ++ BitVec.ofBool p.abortCommitsLast ++ 8#8 ++ BitVec.ofNat 8 p.maxButtons ++ 32#8

/-- R230, R50: the input ports. Asserting `rst` resets the block; while it is asserted a write to CMD is ignored and a
read returns the reset value; when it is released the block goes on from the reset values. A word chosen for
`sample_in` (R9, R171) is the value of the next sample. How `rst` acts between accesses, what it keeps and the choice of
a sample as an act are the model's choices (log 2, log 4, log 12). -/
def Obligations.AssertedRstHoldsResetValues : Prop :=
  ∀ (s : State) (rest : List HostAct) (v : Word) (off : Offset),
    (s.bus = .setRst true :: rest →
      step s = .next { State.resetWith s.params with
        rst := true, sampleNext := s.sampleNext, draws := s.draws, bus := rest, trace := s.trace }) ∧
    (s.rst = true → s.bus = commandWrite v :: rest →
      step s = .next { State.resetWith s.params with
        rst := true, sampleNext := s.sampleNext, draws := s.draws, bus := rest, trace := s.trace }) ∧
    (s.rst = true → off.toNat % 4 = 0 → s.bus = .read .owner off 4 :: rest →
      step s = .next { State.resetWith s.params with
        rst := true, sampleNext := s.sampleNext, draws := s.draws, bus := rest,
        trace := .readData off ((State.resetWith s.params).readWindow off) :: s.trace }) ∧
    (s.bus = .setRst false :: rest →
      (s.rst = true → step s = .next { State.resetWith s.params with
        rst := false, sampleNext := s.sampleNext, draws := s.draws, bus := rest, trace := s.trace }) ∧
      (s.rst = false → step s = .next { s with bus := rest })) ∧
    (s.bus = .setSample v :: rest →
      ∃ t, step s = .next t ∧ t.sampleValue = v ∧
        (s.rst = true → t = { State.resetWith s.params with
          rst := true, sampleNext := some v, draws := s.draws, bus := rest, trace := s.trace }) ∧
        (s.rst = false → t = { s with bus := rest, sampleNext := some v }))

/-- R205: TICK and REGISTER while a walk waits take the block's fault: FAULT, FAULT_CODE and RESULT are written, and
the state is otherwise exactly that before the command. The block's fault is a next state, and `trace` is the model's
own field (log 5, log 10). -/
def Obligations.FaultEntryWritesExactlyThree : Prop :=
  ∀ (s : State) (pin : Byte), s.fault = false → s.dispatching = true →
    exec .tick s = .next
      { s with fault := true, faultCode := .reentrantTick, result := .faulted,
               trace := .result .faulted :: s.trace } ∧
    exec (.register pin) s = .next
      { s with fault := true, faultCode := .registerInDispatch, result := .faulted,
               trace := .result .faulted :: s.trace }

/-- R206: while FAULT = 1 every word but 0xF0000000, legal or not, is ignored with RESULT <- FAULTED. `trace` is the
model's own field (log 10). -/
def Obligations.FaultedBlockIgnoresWords : Prop :=
  ∀ (s : State) (v : Word) (rest : List HostAct),
    s.fault = true → s.rst = false → s.bus = commandWrite v :: rest → v ≠ 0xF0000000 →
      step s = .next { s with bus := rest, result := .faulted, trace := .result .faulted :: s.trace }

/-- R206, R230: only the RESET word or the `rst` input clears FAULT. -/
def Obligations.OnlyResetClearsFault : Prop :=
  ∀ s t : State, ¬ s.Safe → step s = .next t → t.Safe →
    s.rst = true ∨ ∃ a rest, s.bus = a :: rest ∧ a.Resets

/-- R170, R209: a walk starts to wait, and `evt_valid` rises, only at the word TICK. -/
def Obligations.OnlyTickStartsWaiting : Prop :=
  ∀ s t : State, s.evtValid = false → step s = .next t → t.evtValid = true →
    ∃ rest, s.bus = commandWrite 0x10000000 :: rest

/-- R209, R238: a waiting walk ends, and `evt_valid` falls, only at a word ACK or at a reset. -/
def Obligations.OnlyAckOrResetEndsWaiting : Prop :=
  ∀ s t : State, s.evtValid = true → step s = .next t → t.evtValid = false →
    s.rst = true ∨ ∃ a rest, s.bus = a :: rest ∧
      (a = commandWrite 0x50000000 ∨ a = commandWrite 0x50000001 ∨ a.Resets)

/-- R60, R204: when the pending act is a write of a word to CMD and the word decodes, the step takes the act and runs
the instruction; nothing else is added. The pending acts are the model's own field (log 3). -/
def Obligations.StepRunsDecodedInstruction : Prop :=
  ∀ (s : State) (v : Word) (i : Instr) (rest : List HostAct),
    s.rst = false → s.bus = commandWrite v :: rest → decode v = .ok i →
      step s = exec i { s with bus := rest }

/-- R216: with nothing pending the block is idle, and idling changes nothing. A step with nothing pending is the
model's choice (log 17). -/
def Obligations.IdleStepChangesNothing : Prop :=
  ∀ s : State, s.bus = [] → s.rst = false → step s = .next s

/-- R32, R140: every command writes RESULT exactly once: one result item is added to the trace, and it is the value
RESULT holds. `trace` is the model's own field (log 10). -/
def Obligations.EveryCommandWritesResultOnce : Prop :=
  ∀ (i : Instr) (s t : State), exec i s = .next t →
    ∃ added, t.trace = added ++ s.trace ∧ added.filter TraceItem.isResult = [.result t.result]

/-- R171, D33: a sample is read by nothing but an accepted TICK or REGISTER, and such a command reads exactly one.
`sampleNext` and `draws` are the model's own fields (log 2). -/
def Obligations.SampleReadOnceByTickAndRegisterAlone : Prop :=
  ∀ (i : Instr) (s t : State), exec i s = .next t →
    (SameSampler s t ∨
      (OneSample s t ∧ s.fault = false ∧ s.dispatching = false ∧ t.result = .ok ∧
        (i = .tick ∨ ∃ pin, i = .register pin))) ∧
    ((i = .tick ∨ ∃ pin, i = .register pin) → s.fault = false → s.dispatching = false → t.result = .ok → OneSample s t)

/-- R5, R34, R55: no step changes the parameters, and so none changes CONFIG or ID. That the parameters stand in State
is the model's choice (log 1). -/
def Obligations.StepKeepsConstants : Prop :=
  ∀ s t : State, step s = .next t →
    t.params = s.params ∧ t.readWindow 0x000 = s.readWindow 0x000 ∧ t.readWindow 0x02C = s.readWindow 0x02C

/-- R217: from a state of the invariant every command answers a next state, and no step stops but on an access by a
second context (R67). The refusal's form is the model's choice (log 8). -/
def Obligations.EveryCommandCompletesUnderInvariant : Prop :=
  ∀ s : State, BlockInv s →
    (∀ i : Instr, ∃ t, exec i s = .next t) ∧
    (∀ r, step s ≠ .fault r) ∧
    (∀ r, step s = .refused r → r = .secondContext ∧
      ∃ rest, (∃ off n, s.bus = .read .other off n :: rest) ∨ ∃ off n v, s.bus = .write .other off n v :: rest)

/-- R67: an access by a second execution context is refused, whatever the state. The refusal's form is the model's
choice (log 8). -/
def Obligations.SecondContextIsRefused : Prop :=
  ∀ (s : State) (off : Offset) (n : Nat) (v : Word) (rest : List HostAct),
    (s.bus = .read .other off n :: rest → step s = .refused .secondContext) ∧
    (s.bus = .write .other off n v :: rest → step s = .refused .secondContext)

/-! ## Invariants -/

/-- R37, R38: items 1 to 5 of R37 and the fault, event and `rst` invariants hold at reset, for an implementation with any
legal parameters (R5). That `rst` is released there is the model's choice (log 12). -/
def Obligations.InvariantsHoldAtReset : Prop :=
  ∀ p : Config.Params, p.Legal →
    BlockInv (State.resetWith p) ∧ FaultInv (State.resetWith p) ∧ EventInv (State.resetWith p) ∧
      HeldInv (State.resetWith p)

/-- R37: every step keeps items 1 to 5. -/
def Obligations.StepKeepsBlockInv : Prop :=
  ∀ s t : State, BlockInv s → step s = .next t → BlockInv t

/-- R33, R205, R206: every step keeps the fault invariant. -/
def Obligations.StepKeepsFaultInv : Prop :=
  ∀ s t : State, FaultInv s → step s = .next t → FaultInv t

/-- R53, R175, R30: every step keeps the pending event naming the position CURSOR stands at. -/
def Obligations.StepKeepsEventInv : Prop :=
  ∀ s t : State, BlockInv s → EventInv s → step s = .next t → EventInv t

/-- R230: every step keeps the block at its reset values while `rst` is asserted. How `rst` acts is the model's choice
(log 12). -/
def Obligations.StepKeepsHeldInv : Prop :=
  ∀ s t : State, HeldInv s → step s = .next t → HeldInv t

/-! ## The register window -/

/-- R56: an access of another width than 32 bits, or at an offset that is not a multiple of 4, read or write, CMD
included, gets a bus error and has no effect (`held` is the effect of an asserted `rst`, R230, and of nothing else). A
bus error is a next state with an item in `trace`, and a bad access gets one also while `rst` is asserted: the model's
choices (log 6, log 10, log 12). -/
def Obligations.BadAccessIsBusErrorWithoutEffect : Prop :=
  ∀ (s : State) (off : Offset) (n : Nat) (v : Word) (rest : List HostAct),
    (n ≠ 4 ∨ off.toNat % 4 ≠ 0) →
      s.bus = .read .owner off n :: rest ∨ s.bus = .write .owner off n v :: rest →
        step s = .next { ({ s with bus := rest } : State).held with trace := .busError :: s.trace } ∧
        (s.rst = false → ({ s with bus := rest } : State).held = { s with bus := rest })

/-- R58: a read returns the register's word and changes no state, so a later read returns the same; CMD reads 0
(`held` is the effect of an asserted `rst`, R230). `trace` is the model's own field and `rst` a level it holds (log 10,
log 12). -/
def Obligations.ReadsHaveNoSideEffect : Prop :=
  ∀ (s t : State) (off : Offset) (rest : List HostAct),
    off.toNat % 4 = 0 → s.bus = .read .owner off 4 :: rest → step s = .next t →
      let u := ({ s with bus := rest } : State).held
      t = { u with trace := .readData off (u.readWindow off) :: s.trace } ∧
      (∀ o : Offset, t.readWindow o = u.readWindow o) ∧ u.readWindow 0x004 = 0 ∧
      (s.rst = false → u = { s with bus := rest })

/-- R59: an aligned 32-bit write to any offset but CMD is ignored; a reserved offset reads 0 (`held` is the effect of an
asserted `rst`, R230, a level that the model holds: log 12). -/
def Obligations.OtherWritesIgnoredAndReservedReadsZero : Prop :=
  ∀ (s : State) (off : Offset) (v : Word) (rest : List HostAct), off.toNat % 4 = 0 →
    (off ≠ 0x004 → s.bus = .write .owner off 4 v :: rest →
      step s = .next ({ s with bus := rest } : State).held ∧
      (s.rst = false → ({ s with bus := rest } : State).held = { s with bus := rest })) ∧
    ((0x030 ≤ off.toNat ∧ off.toNat < 0x100) ∨ 0x300 ≤ off.toNat ∨
      (0x100 ≤ off.toNat ∧ off.toNat < 0x300 ∧
        (off.toNat % 16 = 12 ∨ s.params.maxButtons ≤ (off.toNat - 0x100) / 16)) → s.readWindow off = 0)

/-- R51 to R53, R55: every register below 0x030; EVENT reads 0 when DISPATCHING = 0. -/
def Obligations.WindowShowsTheRegisters : Prop :=
  ∀ s : State,
    s.readWindow 0x000 = 0x42544E31 ∧ s.readWindow 0x004 = 0 ∧
    s.readWindow 0x008 = 0#8 ++ s.count ++ 0#4 ++ s.faultCode.code ++ 0#2 ++ BitVec.ofBool s.fault
      ++ BitVec.ofBool s.dispatching ++ s.result.code ∧
    s.readWindow 0x00C = s.raw ∧ s.readWindow 0x010 = s.c0 ∧ s.readWindow 0x014 = s.c1 ∧
    s.readWindow 0x018 = s.last ∧ s.readWindow 0x01C = s.delta ∧ s.readWindow 0x020 = s.rising ∧
    s.readWindow 0x024 = s.falling ∧ s.readWindow 0x028 = (if s.dispatching then s.event else 0) ∧
    s.readWindow 0x02C = 0#7 ++ BitVec.ofBool s.params.abortCommitsLast ++ 8#8 ++ BitVec.ofNat 8 s.params.maxButtons
      ++ 32#8

/-- R52, R201, R202: the fields of STATUS. -/
def Obligations.StatusFields : Prop :=
  ∀ s : State,
    (s.readWindow 0x008).extractLsb' 0 4 =
      (match s.result with
        | .ok => 0
        | .illegal => 1
        | .pinRange => 2
        | .tableFull => 3
        | .badEntry => 4
        | .notDispatching => 5
        | .handlerRaised => 6
        | .faulted => 7) ∧
    (s.readWindow 0x008).getLsbD 4 = s.dispatching ∧
    (s.readWindow 0x008).getLsbD 5 = s.fault ∧
    (s.readWindow 0x008).extractLsb' 6 2 = 0 ∧
    (s.readWindow 0x008).extractLsb' 8 4 =
      (match s.faultCode with
        | .none => 0
        | .reentrantTick => 1
        | .registerInDispatch => 2) ∧
    (s.readWindow 0x008).extractLsb' 12 4 = 0 ∧
    (s.readWindow 0x008).extractLsb' 16 8 = s.count ∧
    (s.readWindow 0x008).extractLsb' 24 8 = 0

/-- R53, R175: the fields of the event that is latched for entry e < 32 and phase g. -/
def Obligations.EventFields : Prop :=
  ∀ (e : Nat) (g : Edge) (t : Entry), e < 32 →
    (eventWord ⟨e, g⟩ t).extractLsb' 0 8 = t.pin ∧
    (eventWord ⟨e, g⟩ t).extractLsb' 8 8 = (t.h g).token ∧
    (eventWord ⟨e, g⟩ t).extractLsb' 16 8 = (t.a g).token ∧
    (eventWord ⟨e, g⟩ t).getLsbD 24 = (t.a g).present ∧
    ((eventWord ⟨e, g⟩ t).getLsbD 25 = true ↔ g = .fall) ∧
    ((eventWord ⟨e, g⟩ t).extractLsb' 26 5).toNat = e ∧
    (eventWord ⟨e, g⟩ t).getLsbD 31 = true

/-- R54: the words of entry i < MAX_BUTTONS, at 0x100 + 16*i, 0x104 + 16*i and 0x108 + 16*i. -/
def Obligations.EntryWindowFields : Prop :=
  ∀ (s : State) (i : Nat), i < 32 → i < s.params.maxButtons →
    let p := s.readWindow (BitVec.ofNat 10 (0x100 + 16 * i))
    let edge := fun g => s.readWindow (BitVec.ofNat 10 (0x104 + 4 * (bitOfEdge g).toNat + 16 * i))
    p.extractLsb' 0 8 = (s.entry i).pin ∧ p.extractLsb' 8 23 = 0 ∧
    (p.getLsbD 31 = true ↔ i < s.count.toNat) ∧
    ∀ g, (edge g).extractLsb' 0 8 = ((s.entry i).h g).token ∧
      (edge g).getLsbD 8 = ((s.entry i).h g).present ∧ (edge g).extractLsb' 9 7 = 0 ∧
      (edge g).extractLsb' 16 8 = ((s.entry i).a g).token ∧
      (edge g).getLsbD 24 = ((s.entry i).a g).present ∧ (edge g).extractLsb' 25 7 = 0

/-- R55: the fields of CONFIG, and that no step changes it. -/
def Obligations.ConfigFields : Prop :=
  ∀ s : State, s.params.Legal →
    (∀ t, step s = .next t → t.readWindow 0x02C = s.readWindow 0x02C) ∧
    (s.readWindow 0x02C).extractLsb' 0 8 = 32 ∧
    ((s.readWindow 0x02C).extractLsb' 8 8).toNat = s.params.maxButtons ∧
    (s.readWindow 0x02C).extractLsb' 16 8 = 8 ∧
    (s.readWindow 0x02C).getLsbD 24 = s.params.abortCommitsLast ∧
    (s.readWindow 0x02C).extractLsb' 25 7 = 0
end

