-- ==== Sys2Proof/Laws/Decode.lean ====
section
/-! SUPPORT. What the decoder can answer: one case per row of the opcode map (R76, R82). -/

namespace Sys2Proof

theorem decode_cases {v : Word} {i : Instr} (h : decode v = .ok i) :
    (opField v = 0x1 ∧ reservedZeroN v = true ∧ i = .tick) ∨
    (opField v = 0x2 ∧ reservedZeroP v = true ∧ i = .register (pinField v)) ∨
    (opField v = 0x3 ∧ reservedZeroE v = true ∧
      i = .seth (entryField v) (edgeField v) (presentField v) (tokenField v)) ∨
    (opField v = 0x4 ∧ reservedZeroE v = true ∧
      i = .seta (entryField v) (edgeField v) (presentField v) (tokenField v)) ∨
    (opField v = 0x5 ∧ reservedZeroA v = true ∧ i = .ack (raisedField v)) ∨
    (opField v = 0xF ∧ reservedZeroN v = true ∧ i = .reset) := by
  unfold decode whenReservedZero at h
  split_ifs at h <;> simp_all

end Sys2Proof
end

