-- ==== Sys2Proof/Laws/State.lean ====
section
/-! SUPPORT. For every named update of State, what each field is after it: one lemma per field, true by rfl. -/

namespace Sys2Proof.Machine

variable (s : State)

/-! The fields after `note` (R11). -/

@[simp] theorem State.note_raw (x : TraceItem) : (s.note x).raw = s.raw := rfl
@[simp] theorem State.note_c0 (x : TraceItem) : (s.note x).c0 = s.c0 := rfl
@[simp] theorem State.note_c1 (x : TraceItem) : (s.note x).c1 = s.c1 := rfl
@[simp] theorem State.note_last (x : TraceItem) : (s.note x).last = s.last := rfl
@[simp] theorem State.note_delta (x : TraceItem) : (s.note x).delta = s.delta := rfl
@[simp] theorem State.note_rising (x : TraceItem) : (s.note x).rising = s.rising := rfl
@[simp] theorem State.note_falling (x : TraceItem) : (s.note x).falling = s.falling := rfl
@[simp] theorem State.note_count (x : TraceItem) : (s.note x).count = s.count := rfl
@[simp] theorem State.note_table (x : TraceItem) : (s.note x).table = s.table := rfl
@[simp] theorem State.note_dispatching (x : TraceItem) : (s.note x).dispatching = s.dispatching := rfl
@[simp] theorem State.note_cursor (x : TraceItem) : (s.note x).cursor = s.cursor := rfl
@[simp] theorem State.note_event (x : TraceItem) : (s.note x).event = s.event := rfl
@[simp] theorem State.note_result (x : TraceItem) : (s.note x).result = s.result := rfl
@[simp] theorem State.note_fault (x : TraceItem) : (s.note x).fault = s.fault := rfl
@[simp] theorem State.note_faultCode (x : TraceItem) : (s.note x).faultCode = s.faultCode := rfl
@[simp] theorem State.note_rst (x : TraceItem) : (s.note x).rst = s.rst := rfl
@[simp] theorem State.note_params (x : TraceItem) : (s.note x).params = s.params := rfl
@[simp] theorem State.note_sampleNext (x : TraceItem) : (s.note x).sampleNext = s.sampleNext := rfl
@[simp] theorem State.note_draws (x : TraceItem) : (s.note x).draws = s.draws := rfl
@[simp] theorem State.note_bus (x : TraceItem) : (s.note x).bus = s.bus := rfl
@[simp] theorem State.note_trace (x : TraceItem) : (s.note x).trace = x :: s.trace := rfl

/-! The fields after `setResult` (R32). -/

@[simp] theorem State.setResult_raw (c : ResultCode) : (s.setResult c).raw = s.raw := rfl
@[simp] theorem State.setResult_c0 (c : ResultCode) : (s.setResult c).c0 = s.c0 := rfl
@[simp] theorem State.setResult_c1 (c : ResultCode) : (s.setResult c).c1 = s.c1 := rfl
@[simp] theorem State.setResult_last (c : ResultCode) : (s.setResult c).last = s.last := rfl
@[simp] theorem State.setResult_delta (c : ResultCode) : (s.setResult c).delta = s.delta := rfl
@[simp] theorem State.setResult_rising (c : ResultCode) : (s.setResult c).rising = s.rising := rfl
@[simp] theorem State.setResult_falling (c : ResultCode) : (s.setResult c).falling = s.falling := rfl
@[simp] theorem State.setResult_count (c : ResultCode) : (s.setResult c).count = s.count := rfl
@[simp] theorem State.setResult_table (c : ResultCode) : (s.setResult c).table = s.table := rfl
@[simp] theorem State.setResult_dispatching (c : ResultCode) : (s.setResult c).dispatching = s.dispatching := rfl
@[simp] theorem State.setResult_cursor (c : ResultCode) : (s.setResult c).cursor = s.cursor := rfl
@[simp] theorem State.setResult_event (c : ResultCode) : (s.setResult c).event = s.event := rfl
@[simp] theorem State.setResult_result (c : ResultCode) : (s.setResult c).result = c := rfl
@[simp] theorem State.setResult_fault (c : ResultCode) : (s.setResult c).fault = s.fault := rfl
@[simp] theorem State.setResult_faultCode (c : ResultCode) : (s.setResult c).faultCode = s.faultCode := rfl
@[simp] theorem State.setResult_rst (c : ResultCode) : (s.setResult c).rst = s.rst := rfl
@[simp] theorem State.setResult_params (c : ResultCode) : (s.setResult c).params = s.params := rfl
@[simp] theorem State.setResult_sampleNext (c : ResultCode) : (s.setResult c).sampleNext = s.sampleNext := rfl
@[simp] theorem State.setResult_draws (c : ResultCode) : (s.setResult c).draws = s.draws := rfl
@[simp] theorem State.setResult_bus (c : ResultCode) : (s.setResult c).bus = s.bus := rfl
@[simp] theorem State.setResult_trace (c : ResultCode) : (s.setResult c).trace = .result c :: s.trace := rfl

/-! The fields after `drawSample` (R9). -/

@[simp] theorem State.drawSample_raw : (s.drawSample).raw = s.raw := rfl
@[simp] theorem State.drawSample_c0 : (s.drawSample).c0 = s.c0 := rfl
@[simp] theorem State.drawSample_c1 : (s.drawSample).c1 = s.c1 := rfl
@[simp] theorem State.drawSample_last : (s.drawSample).last = s.last := rfl
@[simp] theorem State.drawSample_delta : (s.drawSample).delta = s.delta := rfl
@[simp] theorem State.drawSample_rising : (s.drawSample).rising = s.rising := rfl
@[simp] theorem State.drawSample_falling : (s.drawSample).falling = s.falling := rfl
@[simp] theorem State.drawSample_count : (s.drawSample).count = s.count := rfl
@[simp] theorem State.drawSample_table : (s.drawSample).table = s.table := rfl
@[simp] theorem State.drawSample_dispatching : (s.drawSample).dispatching = s.dispatching := rfl
@[simp] theorem State.drawSample_cursor : (s.drawSample).cursor = s.cursor := rfl
@[simp] theorem State.drawSample_event : (s.drawSample).event = s.event := rfl
@[simp] theorem State.drawSample_result : (s.drawSample).result = s.result := rfl
@[simp] theorem State.drawSample_fault : (s.drawSample).fault = s.fault := rfl
@[simp] theorem State.drawSample_faultCode : (s.drawSample).faultCode = s.faultCode := rfl
@[simp] theorem State.drawSample_rst : (s.drawSample).rst = s.rst := rfl
@[simp] theorem State.drawSample_params : (s.drawSample).params = s.params := rfl
@[simp] theorem State.drawSample_sampleNext : (s.drawSample).sampleNext = none := rfl
@[simp] theorem State.drawSample_draws : (s.drawSample).draws = s.draws + 1 := rfl
@[simp] theorem State.drawSample_bus : (s.drawSample).bus = s.bus := rfl
@[simp] theorem State.drawSample_trace : (s.drawSample).trace = s.trace := rfl

/-! The fields after `setEntry` (R28). -/

@[simp] theorem State.setEntry_raw (i : Nat) (t : Entry) : (s.setEntry i t).raw = s.raw := rfl
@[simp] theorem State.setEntry_c0 (i : Nat) (t : Entry) : (s.setEntry i t).c0 = s.c0 := rfl
@[simp] theorem State.setEntry_c1 (i : Nat) (t : Entry) : (s.setEntry i t).c1 = s.c1 := rfl
@[simp] theorem State.setEntry_last (i : Nat) (t : Entry) : (s.setEntry i t).last = s.last := rfl
@[simp] theorem State.setEntry_delta (i : Nat) (t : Entry) : (s.setEntry i t).delta = s.delta := rfl
@[simp] theorem State.setEntry_rising (i : Nat) (t : Entry) : (s.setEntry i t).rising = s.rising := rfl
@[simp] theorem State.setEntry_falling (i : Nat) (t : Entry) : (s.setEntry i t).falling = s.falling := rfl
@[simp] theorem State.setEntry_count (i : Nat) (t : Entry) : (s.setEntry i t).count = s.count := rfl
@[simp] theorem State.setEntry_table (i : Nat) (t : Entry) : (s.setEntry i t).table = s.table.setIfInBounds i t := rfl
@[simp] theorem State.setEntry_dispatching (i : Nat) (t : Entry) : (s.setEntry i t).dispatching = s.dispatching := rfl
@[simp] theorem State.setEntry_cursor (i : Nat) (t : Entry) : (s.setEntry i t).cursor = s.cursor := rfl
@[simp] theorem State.setEntry_event (i : Nat) (t : Entry) : (s.setEntry i t).event = s.event := rfl
@[simp] theorem State.setEntry_result (i : Nat) (t : Entry) : (s.setEntry i t).result = s.result := rfl
@[simp] theorem State.setEntry_fault (i : Nat) (t : Entry) : (s.setEntry i t).fault = s.fault := rfl
@[simp] theorem State.setEntry_faultCode (i : Nat) (t : Entry) : (s.setEntry i t).faultCode = s.faultCode := rfl
@[simp] theorem State.setEntry_rst (i : Nat) (t : Entry) : (s.setEntry i t).rst = s.rst := rfl
@[simp] theorem State.setEntry_params (i : Nat) (t : Entry) : (s.setEntry i t).params = s.params := rfl
@[simp] theorem State.setEntry_sampleNext (i : Nat) (t : Entry) : (s.setEntry i t).sampleNext = s.sampleNext := rfl
@[simp] theorem State.setEntry_draws (i : Nat) (t : Entry) : (s.setEntry i t).draws = s.draws := rfl
@[simp] theorem State.setEntry_bus (i : Nat) (t : Entry) : (s.setEntry i t).bus = s.bus := rfl
@[simp] theorem State.setEntry_trace (i : Nat) (t : Entry) : (s.setEntry i t).trace = s.trace := rfl

/-! The fields after `prime` (R142). -/

@[simp] theorem State.prime_raw : (s.prime).raw = s.sampleValue := rfl
@[simp] theorem State.prime_c0 : (s.prime).c0 = s.c0 := rfl
@[simp] theorem State.prime_c1 : (s.prime).c1 = s.c1 := rfl
@[simp] theorem State.prime_last : (s.prime).last = s.sampleValue := rfl
@[simp] theorem State.prime_delta : (s.prime).delta = s.delta := rfl
@[simp] theorem State.prime_rising : (s.prime).rising = s.rising := rfl
@[simp] theorem State.prime_falling : (s.prime).falling = s.falling := rfl
@[simp] theorem State.prime_count : (s.prime).count = s.count := rfl
@[simp] theorem State.prime_table : (s.prime).table = s.table := rfl
@[simp] theorem State.prime_dispatching : (s.prime).dispatching = s.dispatching := rfl
@[simp] theorem State.prime_cursor : (s.prime).cursor = s.cursor := rfl
@[simp] theorem State.prime_event : (s.prime).event = s.event := rfl
@[simp] theorem State.prime_result : (s.prime).result = s.result := rfl
@[simp] theorem State.prime_fault : (s.prime).fault = s.fault := rfl
@[simp] theorem State.prime_faultCode : (s.prime).faultCode = s.faultCode := rfl
@[simp] theorem State.prime_rst : (s.prime).rst = s.rst := rfl
@[simp] theorem State.prime_params : (s.prime).params = s.params := rfl
@[simp] theorem State.prime_sampleNext : (s.prime).sampleNext = none := rfl
@[simp] theorem State.prime_draws : (s.prime).draws = s.draws + 1 := rfl
@[simp] theorem State.prime_bus : (s.prime).bus = s.bus := rfl
@[simp] theorem State.prime_trace : (s.prime).trace = s.trace := rfl

/-! The fields after `countAndPrime` (R141). -/

@[simp] theorem State.countAndPrime_raw : (s.countAndPrime).raw = s.sampleValue := rfl
@[simp] theorem State.countAndPrime_c0 : (s.countAndPrime).c0 = s.c0 := rfl
@[simp] theorem State.countAndPrime_c1 : (s.countAndPrime).c1 = s.c1 := rfl
@[simp] theorem State.countAndPrime_last : (s.countAndPrime).last = s.sampleValue := rfl
@[simp] theorem State.countAndPrime_delta : (s.countAndPrime).delta = s.delta := rfl
@[simp] theorem State.countAndPrime_rising : (s.countAndPrime).rising = s.rising := rfl
@[simp] theorem State.countAndPrime_falling : (s.countAndPrime).falling = s.falling := rfl
@[simp] theorem State.countAndPrime_count : (s.countAndPrime).count = s.count + 1 := rfl
@[simp] theorem State.countAndPrime_table : (s.countAndPrime).table = s.table := rfl
@[simp] theorem State.countAndPrime_dispatching : (s.countAndPrime).dispatching = s.dispatching := rfl
@[simp] theorem State.countAndPrime_cursor : (s.countAndPrime).cursor = s.cursor := rfl
@[simp] theorem State.countAndPrime_event : (s.countAndPrime).event = s.event := rfl
@[simp] theorem State.countAndPrime_result : (s.countAndPrime).result = .ok := rfl
@[simp] theorem State.countAndPrime_fault : (s.countAndPrime).fault = s.fault := rfl
@[simp] theorem State.countAndPrime_faultCode : (s.countAndPrime).faultCode = s.faultCode := rfl
@[simp] theorem State.countAndPrime_rst : (s.countAndPrime).rst = s.rst := rfl
@[simp] theorem State.countAndPrime_params : (s.countAndPrime).params = s.params := rfl
@[simp] theorem State.countAndPrime_sampleNext : (s.countAndPrime).sampleNext = none := rfl
@[simp] theorem State.countAndPrime_draws : (s.countAndPrime).draws = s.draws + 1 := rfl
@[simp] theorem State.countAndPrime_bus : (s.countAndPrime).bus = s.bus := rfl
@[simp] theorem State.countAndPrime_trace : (s.countAndPrime).trace = .result .ok :: s.trace := rfl

/-! The fields after `debounce` (R100). -/

@[simp] theorem State.debounce_raw (v : Word) : (s.debounce v).raw = s.raw ^^^ ((~~~s.c0 &&& (v ^^^ s.raw)) &&& ((s.c1 ^^^ s.c0) &&& (v ^^^ s.raw))) := rfl
@[simp] theorem State.debounce_c0 (v : Word) : (s.debounce v).c0 = ~~~s.c0 &&& (v ^^^ s.raw) := rfl
@[simp] theorem State.debounce_c1 (v : Word) : (s.debounce v).c1 = (s.c1 ^^^ s.c0) &&& (v ^^^ s.raw) := rfl
@[simp] theorem State.debounce_last (v : Word) : (s.debounce v).last = s.last := rfl
@[simp] theorem State.debounce_delta (v : Word) : (s.debounce v).delta = v ^^^ s.raw := rfl
@[simp] theorem State.debounce_rising (v : Word) : (s.debounce v).rising = s.rising := rfl
@[simp] theorem State.debounce_falling (v : Word) : (s.debounce v).falling = s.falling := rfl
@[simp] theorem State.debounce_count (v : Word) : (s.debounce v).count = s.count := rfl
@[simp] theorem State.debounce_table (v : Word) : (s.debounce v).table = s.table := rfl
@[simp] theorem State.debounce_dispatching (v : Word) : (s.debounce v).dispatching = s.dispatching := rfl
@[simp] theorem State.debounce_cursor (v : Word) : (s.debounce v).cursor = s.cursor := rfl
@[simp] theorem State.debounce_event (v : Word) : (s.debounce v).event = s.event := rfl
@[simp] theorem State.debounce_result (v : Word) : (s.debounce v).result = s.result := rfl
@[simp] theorem State.debounce_fault (v : Word) : (s.debounce v).fault = s.fault := rfl
@[simp] theorem State.debounce_faultCode (v : Word) : (s.debounce v).faultCode = s.faultCode := rfl
@[simp] theorem State.debounce_rst (v : Word) : (s.debounce v).rst = s.rst := rfl
@[simp] theorem State.debounce_params (v : Word) : (s.debounce v).params = s.params := rfl
@[simp] theorem State.debounce_sampleNext (v : Word) : (s.debounce v).sampleNext = s.sampleNext := rfl
@[simp] theorem State.debounce_draws (v : Word) : (s.debounce v).draws = s.draws := rfl
@[simp] theorem State.debounce_bus (v : Word) : (s.debounce v).bus = s.bus := rfl
@[simp] theorem State.debounce_trace (v : Word) : (s.debounce v).trace = s.trace := rfl

/-! The fields after `latchEdges` (R122). -/

@[simp] theorem State.latchEdges_raw : (s.latchEdges).raw = s.raw := rfl
@[simp] theorem State.latchEdges_c0 : (s.latchEdges).c0 = s.c0 := rfl
@[simp] theorem State.latchEdges_c1 : (s.latchEdges).c1 = s.c1 := rfl
@[simp] theorem State.latchEdges_last : (s.latchEdges).last = s.last := rfl
@[simp] theorem State.latchEdges_delta : (s.latchEdges).delta = s.delta := rfl
@[simp] theorem State.latchEdges_rising : (s.latchEdges).rising = risingEdges s.raw s.last := rfl
@[simp] theorem State.latchEdges_falling : (s.latchEdges).falling = fallingEdges s.raw s.last := rfl
@[simp] theorem State.latchEdges_count : (s.latchEdges).count = s.count := rfl
@[simp] theorem State.latchEdges_table : (s.latchEdges).table = s.table := rfl
@[simp] theorem State.latchEdges_dispatching : (s.latchEdges).dispatching = s.dispatching := rfl
@[simp] theorem State.latchEdges_cursor : (s.latchEdges).cursor = s.cursor := rfl
@[simp] theorem State.latchEdges_event : (s.latchEdges).event = s.event := rfl
@[simp] theorem State.latchEdges_result : (s.latchEdges).result = s.result := rfl
@[simp] theorem State.latchEdges_fault : (s.latchEdges).fault = s.fault := rfl
@[simp] theorem State.latchEdges_faultCode : (s.latchEdges).faultCode = s.faultCode := rfl
@[simp] theorem State.latchEdges_rst : (s.latchEdges).rst = s.rst := rfl
@[simp] theorem State.latchEdges_params : (s.latchEdges).params = s.params := rfl
@[simp] theorem State.latchEdges_sampleNext : (s.latchEdges).sampleNext = s.sampleNext := rfl
@[simp] theorem State.latchEdges_draws : (s.latchEdges).draws = s.draws := rfl
@[simp] theorem State.latchEdges_bus : (s.latchEdges).bus = s.bus := rfl
@[simp] theorem State.latchEdges_trace : (s.latchEdges).trace = s.trace := rfl

/-! The fields after `present` (R175). -/

@[simp] theorem State.present_raw (p : Pos) : (s.present p).raw = s.raw := rfl
@[simp] theorem State.present_c0 (p : Pos) : (s.present p).c0 = s.c0 := rfl
@[simp] theorem State.present_c1 (p : Pos) : (s.present p).c1 = s.c1 := rfl
@[simp] theorem State.present_last (p : Pos) : (s.present p).last = s.last := rfl
@[simp] theorem State.present_delta (p : Pos) : (s.present p).delta = s.delta := rfl
@[simp] theorem State.present_rising (p : Pos) : (s.present p).rising = s.rising := rfl
@[simp] theorem State.present_falling (p : Pos) : (s.present p).falling = s.falling := rfl
@[simp] theorem State.present_count (p : Pos) : (s.present p).count = s.count := rfl
@[simp] theorem State.present_table (p : Pos) : (s.present p).table = s.table := rfl
@[simp] theorem State.present_dispatching (p : Pos) : (s.present p).dispatching = true := rfl
@[simp] theorem State.present_cursor (p : Pos) : (s.present p).cursor = p.cursor := rfl
@[simp] theorem State.present_event (p : Pos) : (s.present p).event = eventWord p (s.entry p.entry) := rfl
@[simp] theorem State.present_result (p : Pos) : (s.present p).result = s.result := rfl
@[simp] theorem State.present_fault (p : Pos) : (s.present p).fault = s.fault := rfl
@[simp] theorem State.present_faultCode (p : Pos) : (s.present p).faultCode = s.faultCode := rfl
@[simp] theorem State.present_rst (p : Pos) : (s.present p).rst = s.rst := rfl
@[simp] theorem State.present_params (p : Pos) : (s.present p).params = s.params := rfl
@[simp] theorem State.present_sampleNext (p : Pos) : (s.present p).sampleNext = s.sampleNext := rfl
@[simp] theorem State.present_draws (p : Pos) : (s.present p).draws = s.draws := rfl
@[simp] theorem State.present_bus (p : Pos) : (s.present p).bus = s.bus := rfl
@[simp] theorem State.present_trace (p : Pos) : (s.present p).trace = .presented (eventWord p (s.entry p.entry)) :: s.trace := rfl

/-! The fields after `finish` (R178). -/

@[simp] theorem State.finish_raw : (s.finish).raw = s.raw := rfl
@[simp] theorem State.finish_c0 : (s.finish).c0 = s.c0 := rfl
@[simp] theorem State.finish_c1 : (s.finish).c1 = s.c1 := rfl
@[simp] theorem State.finish_last : (s.finish).last = s.raw := rfl
@[simp] theorem State.finish_delta : (s.finish).delta = s.delta := rfl
@[simp] theorem State.finish_rising : (s.finish).rising = s.rising := rfl
@[simp] theorem State.finish_falling : (s.finish).falling = s.falling := rfl
@[simp] theorem State.finish_count : (s.finish).count = s.count := rfl
@[simp] theorem State.finish_table : (s.finish).table = s.table := rfl
@[simp] theorem State.finish_dispatching : (s.finish).dispatching = false := rfl
@[simp] theorem State.finish_cursor : (s.finish).cursor = s.cursor := rfl
@[simp] theorem State.finish_event : (s.finish).event = 0 := rfl
@[simp] theorem State.finish_result : (s.finish).result = s.result := rfl
@[simp] theorem State.finish_fault : (s.finish).fault = s.fault := rfl
@[simp] theorem State.finish_faultCode : (s.finish).faultCode = s.faultCode := rfl
@[simp] theorem State.finish_rst : (s.finish).rst = s.rst := rfl
@[simp] theorem State.finish_params : (s.finish).params = s.params := rfl
@[simp] theorem State.finish_sampleNext : (s.finish).sampleNext = s.sampleNext := rfl
@[simp] theorem State.finish_draws : (s.finish).draws = s.draws := rfl
@[simp] theorem State.finish_bus : (s.finish).bus = s.bus := rfl
@[simp] theorem State.finish_trace : (s.finish).trace = s.trace := rfl

/-! The fields after `abort` (R179). -/

@[simp] theorem State.abort_raw : (s.abort).raw = s.raw := rfl
@[simp] theorem State.abort_c0 : (s.abort).c0 = s.c0 := rfl
@[simp] theorem State.abort_c1 : (s.abort).c1 = s.c1 := rfl
@[simp] theorem State.abort_last : (s.abort).last = if s.params.abortCommitsLast then s.raw else s.last := rfl
@[simp] theorem State.abort_delta : (s.abort).delta = s.delta := rfl
@[simp] theorem State.abort_rising : (s.abort).rising = s.rising := rfl
@[simp] theorem State.abort_falling : (s.abort).falling = s.falling := rfl
@[simp] theorem State.abort_count : (s.abort).count = s.count := rfl
@[simp] theorem State.abort_table : (s.abort).table = s.table := rfl
@[simp] theorem State.abort_dispatching : (s.abort).dispatching = false := rfl
@[simp] theorem State.abort_cursor : (s.abort).cursor = s.cursor := rfl
@[simp] theorem State.abort_event : (s.abort).event = 0 := rfl
@[simp] theorem State.abort_result : (s.abort).result = .handlerRaised := rfl
@[simp] theorem State.abort_fault : (s.abort).fault = s.fault := rfl
@[simp] theorem State.abort_faultCode : (s.abort).faultCode = s.faultCode := rfl
@[simp] theorem State.abort_rst : (s.abort).rst = s.rst := rfl
@[simp] theorem State.abort_params : (s.abort).params = s.params := rfl
@[simp] theorem State.abort_sampleNext : (s.abort).sampleNext = s.sampleNext := rfl
@[simp] theorem State.abort_draws : (s.abort).draws = s.draws := rfl
@[simp] theorem State.abort_bus : (s.abort).bus = s.bus := rfl
@[simp] theorem State.abort_trace : (s.abort).trace = .result .handlerRaised :: s.trace := rfl

/-! The fields after `resetBlock` (R38, R230). -/

@[simp] theorem State.resetBlock_raw : (s.resetBlock).raw = 0 := rfl
@[simp] theorem State.resetBlock_c0 : (s.resetBlock).c0 = 0 := rfl
@[simp] theorem State.resetBlock_c1 : (s.resetBlock).c1 = 0 := rfl
@[simp] theorem State.resetBlock_last : (s.resetBlock).last = 0 := rfl
@[simp] theorem State.resetBlock_delta : (s.resetBlock).delta = 0 := rfl
@[simp] theorem State.resetBlock_rising : (s.resetBlock).rising = 0 := rfl
@[simp] theorem State.resetBlock_falling : (s.resetBlock).falling = 0 := rfl
@[simp] theorem State.resetBlock_count : (s.resetBlock).count = 0 := rfl
@[simp] theorem State.resetBlock_table : (s.resetBlock).table = Vector.replicate 32 Entry.zero := rfl
@[simp] theorem State.resetBlock_dispatching : (s.resetBlock).dispatching = false := rfl
@[simp] theorem State.resetBlock_cursor : (s.resetBlock).cursor = ⟨0, .rise⟩ := rfl
@[simp] theorem State.resetBlock_event : (s.resetBlock).event = 0 := rfl
@[simp] theorem State.resetBlock_result : (s.resetBlock).result = .ok := rfl
@[simp] theorem State.resetBlock_fault : (s.resetBlock).fault = false := rfl
@[simp] theorem State.resetBlock_faultCode : (s.resetBlock).faultCode = .none := rfl
@[simp] theorem State.resetBlock_rst : (s.resetBlock).rst = s.rst := rfl
@[simp] theorem State.resetBlock_params : (s.resetBlock).params = s.params := rfl
@[simp] theorem State.resetBlock_sampleNext : (s.resetBlock).sampleNext = s.sampleNext := rfl
@[simp] theorem State.resetBlock_draws : (s.resetBlock).draws = s.draws := rfl
@[simp] theorem State.resetBlock_bus : (s.resetBlock).bus = s.bus := rfl
@[simp] theorem State.resetBlock_trace : (s.resetBlock).trace = s.trace := rfl

end Sys2Proof.Machine
end

