-- ==== Sys2Proof/Laws/Ops.lean ====
section
/-! SUPPORT. One lemma per shared operation: everything it can do. -/

namespace Sys2Proof.Machine

variable {s t : State}

/-! Outcomes. -/

@[simp] theorem next_inj {s t : State} : ((.next s : Result) = .next t) ↔ s = t :=
  ⟨fun h => by injection h, fun h => by rw [h]⟩

/-- `reject` writes RESULT and nothing else (R200 item 1). -/
theorem reject_eq_next {code : ResultCode} : reject code s = .next t ↔ t = s.setResult code := by
  simp [reject, eq_comm]

/-- R205: what the fault entry leaves. -/
theorem raiseFault_eq_next {code : FaultCode} :
    raiseFault code s = .next t ↔ t = { s with fault := true, faultCode := code }.setResult .faulted := by
  simp [raiseFault, eq_comm]

/-- R204, R206: the command runs when FAULT = 0 and is ignored with FAULTED when FAULT = 1. -/
theorem unlessFaulted_eq_next {run : Result} :
    unlessFaulted s run = .next t ↔
      (s.fault = true ∧ t = s.setResult .faulted) ∨ (s.fault = false ∧ run = .next t) := by
  cases h : s.fault <;> simp [unlessFaulted, h, reject_eq_next]

@[simp] theorem unlessFaulted_of_not_fault {run : Result} (h : s.fault = false) : unlessFaulted s run = run := by
  simp [unlessFaulted, h]

/-! The button table. -/

theorem hasEntry_iff {i : Nat} : s.hasEntry i = true ↔ i < s.params.maxButtons ∧ i < 32 := by
  simp [State.hasEntry]

theorem entry_congr (h : t.table = s.table) (i : Nat) : t.entry i = s.entry i := by
  simp [State.entry, h]

/-- `T[i] <- t` for an existing entry changes entry `i` alone. -/
theorem entry_setEntry {i : Nat} (hi : i < 32) (e : Entry) (j : Nat) :
    (s.setEntry i e).entry j = if j = i then e else s.entry j := by
  by_cases h : j = i
  · subst h; simp [State.entry, hi]
  · simp [State.entry, h, Ne.symm h]

theorem entry_of_ge {i : Nat} (h : 32 ≤ i) : s.entry i = Entry.zero := by
  simp [State.entry, h]

/-- A table of all-zero records reads as the all-zero record everywhere (R38). -/
theorem entry_of_replicate (h : s.table = Vector.replicate 32 Entry.zero) (i : Nat) : s.entry i = Entry.zero := by
  by_cases hi : i < 32 <;> simp [State.entry, h, hi]

@[simp] theorem entry_resetBlock (i : Nat) : s.resetBlock.entry i = Entry.zero := entry_of_replicate rfl i

@[simp] theorem entry_note (x : TraceItem) (i : Nat) : (s.note x).entry i = s.entry i := rfl
@[simp] theorem entry_setResult (c : ResultCode) (i : Nat) : (s.setResult c).entry i = s.entry i := rfl
@[simp] theorem entry_drawSample (i : Nat) : s.drawSample.entry i = s.entry i := rfl
@[simp] theorem entry_prime (i : Nat) : s.prime.entry i = s.entry i := rfl
@[simp] theorem entry_countAndPrime (i : Nat) : s.countAndPrime.entry i = s.entry i := rfl
@[simp] theorem entry_debounce (v : Word) (i : Nat) : (s.debounce v).entry i = s.entry i := rfl
@[simp] theorem entry_latchEdges (i : Nat) : s.latchEdges.entry i = s.entry i := rfl
@[simp] theorem entry_present (p : Pos) (i : Nat) : (s.present p).entry i = s.entry i := rfl
@[simp] theorem entry_finish (i : Nat) : s.finish.entry i = s.entry i := rfl
@[simp] theorem entry_abort (i : Nat) : s.abort.entry i = s.entry i := rfl

/-- A table write succeeds exactly for an entry that exists, and then the command goes on. -/
theorem writeEntry_eq_next {i : Nat} {e : Entry} {rest : State → Result} :
    writeEntry s i e rest = .next t ↔ s.hasEntry i = true ∧ rest (s.setEntry i e) = .next t := by
  cases h : s.hasEntry i <;> simp [writeEntry, h]

/-! The walk. -/

@[simp] theorem succ_rank (p : Pos) : p.succ.rank = p.rank + 1 := by
  obtain ⟨e, _ | _⟩ := p <;> simp [Pos.succ, Pos.rank, bitOfEdge]; omega

theorem rank_inj {p q : Pos} (h : p.rank = q.rank) : p = q := by
  obtain ⟨e, _ | _⟩ := p <;> obtain ⟨e', _ | _⟩ := q <;> simp [Pos.rank, bitOfEdge] at h ⊢ <;> omega

theorem rank_lt_of_matchesAt {p : Pos} (h : s.MatchesAt p) : p.rank < 2 * s.count.toNat := by
  obtain ⟨h, -⟩ := h
  obtain ⟨e, _ | _⟩ := p <;> simp [Pos.rank, bitOfEdge] at h ⊢ <;> omega

theorem count_le_rank {p : Pos} (h : ¬ p.entry < s.count.toNat) : 2 * s.count.toNat ≤ p.rank := by
  obtain ⟨e, _ | _⟩ := p <;> simp [Pos.rank, bitOfEdge] at h ⊢ <;> omega

theorem matches_congr (hc : t.table = s.table) (hr : t.rising = s.rising) (hf : t.falling = s.falling) (p : Pos) :
    t.matches p = s.matches p := by
  obtain ⟨e, _ | _⟩ := p <;> simp [State.matches, State.edgeMask, entry_congr hc, hr, hf]

theorem matchesAt_congr (hn : t.count = s.count) (hc : t.table = s.table) (hr : t.rising = s.rising)
    (hf : t.falling = s.falling) (p : Pos) : t.MatchesAt p ↔ s.MatchesAt p := by
  simp only [State.MatchesAt, hn, matches_congr hc hr hf p]

/-- With no edge nothing matches (R172). -/
theorem not_matchesAt_of_no_edges (hr : s.rising = 0) (hf : s.falling = 0) (p : Pos) : ¬ s.MatchesAt p := by
  obtain ⟨e, _ | _⟩ := p <;> simp [State.MatchesAt, State.matches, State.edgeMask, hr, hf, laneBit]

theorem nextEventLoop_some {n : Nat} {p q : Pos} (h : nextEventLoop s n p = some q) : s.FirstMatchFrom p.rank q := by
  induction n generalizing p with
  | zero => simp [nextEventLoop] at h
  | succ n ih =>
    simp only [nextEventLoop] at h
    split at h
    next hlt =>
      split at h
      next hm =>
        obtain rfl : p = q := by simpa using h
        exact ⟨⟨hlt, hm⟩, le_rfl, fun r h1 h2 => absurd h2 (by omega)⟩
      next hm =>
        obtain ⟨h1, h2, h3⟩ := ih h
        rw [succ_rank] at h2 h3
        refine ⟨h1, by omega, fun r hr1 hr2 => ?_⟩
        rcases Nat.eq_or_lt_of_le hr1 with he | hl
        · obtain rfl := rank_inj he
          exact fun hc => hm hc.2
        · exact h3 r hl hr2
    next => simp at h

theorem nextEventLoop_none {n : Nat} {p : Pos} (hn : 2 * s.count.toNat ≤ n + p.rank)
    (h : nextEventLoop s n p = none) : s.NoMatchFrom p.rank := by
  induction n generalizing p with
  | zero =>
    intro q hq hm
    have := rank_lt_of_matchesAt hm
    omega
  | succ n ih =>
    simp only [nextEventLoop] at h
    split at h
    next hlt =>
      split at h
      next => simp at h
      next hm =>
        have := ih (p := p.succ) (by rw [succ_rank]; omega) h
        intro q hq hc
        rcases Nat.eq_or_lt_of_le hq with he | hl
        · obtain rfl := rank_inj he
          exact hm hc.2
        · exact this q (by rw [succ_rank]; omega) hc
    next hge =>
      intro q hq hm
      have := rank_lt_of_matchesAt hm
      have := count_le_rank hge
      omega

/-- R173: `NextEvent` is the first match at or after the position, or none when there is none. -/
theorem nextEvent_spec (s : State) (p : Pos) :
    (∃ q, s.nextEvent p = some q ∧ s.FirstMatchFrom p.rank q) ∨ (s.nextEvent p = none ∧ s.NoMatchFrom p.rank) := by
  cases h : s.nextEvent p with
  | some q => exact .inl ⟨q, rfl, nextEventLoop_some h⟩
  | none => exact .inr ⟨rfl, nextEventLoop_none (by omega) h⟩

/-- R175, R178: the walk goes on to the first match, or finishes. -/
theorem walkFrom_cases (s : State) (p : Pos) :
    (∃ q, s.FirstMatchFrom p.rank q ∧ s.walkFrom p = s.present q) ∨
      (s.NoMatchFrom p.rank ∧ s.walkFrom p = s.finish) := by
  rcases nextEvent_spec s p with ⟨q, h, hq⟩ | ⟨h, hn⟩
  · exact .inl ⟨q, hq, by simp [State.walkFrom, h]⟩
  · exact .inr ⟨hn, by simp [State.walkFrom, h]⟩

theorem firstMatchFrom_unique {n : Nat} {p q : Pos} (hp : s.FirstMatchFrom n p) (hq : s.FirstMatchFrom n q) : p = q := by
  refine rank_inj (le_antisymm ?_ ?_)
  · exact le_of_not_gt fun h => hp.2.2 q hq.2.1 h hq.1
  · exact le_of_not_gt fun h => hq.2.2 p hp.2.1 h hp.1

theorem firstMatchFrom_congr (hn : t.count = s.count) (hc : t.table = s.table) (hr : t.rising = s.rising)
    (hf : t.falling = s.falling) (n : Nat) (p : Pos) : t.FirstMatchFrom n p ↔ s.FirstMatchFrom n p := by
  simp only [State.FirstMatchFrom, matchesAt_congr hn hc hr hf]

theorem noMatchFrom_congr (hn : t.count = s.count) (hc : t.table = s.table) (hr : t.rising = s.rising)
    (hf : t.falling = s.falling) (n : Nat) : t.NoMatchFrom n ↔ s.NoMatchFrom n := by
  simp only [State.NoMatchFrom, matchesAt_congr hn hc hr hf]

/-- CURSOR holds the position that is stored in it, when the entry index fits its 5 bits (R20). -/
theorem cursor_pos {p : Pos} (h : p.entry < 32) : p.cursor.pos = p := by
  obtain ⟨e, g⟩ := p
  simp [Pos.cursor, Cursor.pos] at *
  omega

/-- R170, R172: the tick is complete without a walk, or a walk starts at (0, RISE). -/
theorem dispatchEdges_cases (s : State) :
    (s.rising = 0 ∧ s.falling = 0 ∧ s.dispatchEdges = { s with last := s.raw }) ∨
    (¬ (s.rising = 0 ∧ s.falling = 0) ∧ ∃ q, s.FirstMatchFrom 0 q ∧ s.dispatchEdges = s.present q) ∨
    (¬ (s.rising = 0 ∧ s.falling = 0) ∧ s.NoMatchFrom 0 ∧ s.dispatchEdges = s.finish) := by
  unfold State.dispatchEdges
  split
  next h => exact .inl ⟨h.1, h.2, rfl⟩
  next h =>
    rcases walkFrom_cases s ⟨0, .rise⟩ with hq | hn
    · exact .inr (.inl ⟨h, hq⟩)
    · exact .inr (.inr ⟨h, hn⟩)

/-- R177: an acknowledgement aborts the walk, presents the first match after CURSOR, or finishes. -/
theorem acknowledge_cases (s : State) (r : Bool) :
    (r = true ∧ s.acknowledge r = (s.note (.acked s.event r)).abort) ∨
    (r = false ∧ ∃ q, s.FirstMatchFrom (s.cursor.pos.rank + 1) q ∧
      s.acknowledge r = ((s.note (.acked s.event r)).setResult .ok).present q) ∨
    (r = false ∧ s.NoMatchFrom (s.cursor.pos.rank + 1) ∧
      s.acknowledge r = ((s.note (.acked s.event r)).setResult .ok).finish) := by
  cases r with
  | true => exact .inl ⟨rfl, rfl⟩
  | false =>
    rw [← succ_rank]
    rcases walkFrom_cases ((s.note (.acked s.event false)).setResult .ok) s.cursor.pos.succ with ⟨q, hq, h⟩ | ⟨hn, h⟩
    · exact .inr (.inl ⟨rfl, q, (firstMatchFrom_congr rfl rfl rfl rfl _ q).1 hq, by simpa [State.acknowledge] using h⟩)
    · exact .inr (.inr ⟨rfl, (noMatchFrom_congr rfl rfl rfl rfl _).1 hn, by simpa [State.acknowledge] using h⟩)

/-! The meanings: what each can do when it answers a next state. -/

theorem execTick_cases (h : execTick s = .next t) :
    (s.fault = true ∧ t = s.setResult .faulted) ∨
    (s.fault = false ∧ s.dispatching = true ∧
      t = { s with fault := true, faultCode := .reentrantTick }.setResult .faulted) ∨
    (s.fault = false ∧ s.dispatching = false ∧ t = s.sampleAndLatch.dispatchEdges) := by
  rcases unlessFaulted_eq_next.1 h with h | ⟨hf, h⟩
  · exact .inl h
  · cases hd : s.dispatching
    · exact .inr (.inr ⟨hf, rfl, by simpa [hd, eq_comm] using h⟩)
    · exact .inr (.inl ⟨hf, rfl, by simpa [hd, raiseFault_eq_next] using h⟩)

theorem execAck_cases {raised : Bool} (h : execAck raised s = .next t) :
    (s.fault = true ∧ t = s.setResult .faulted) ∨
    (s.fault = false ∧ s.dispatching = false ∧ t = s.setResult .notDispatching) ∨
    (s.fault = false ∧ s.dispatching = true ∧ t = s.acknowledge raised) := by
  rcases unlessFaulted_eq_next.1 h with h | ⟨hf, h⟩
  · exact .inl h
  · cases hd : s.dispatching
    · exact .inr (.inl ⟨hf, rfl, by simpa [hd, reject_eq_next] using h⟩)
    · exact .inr (.inr ⟨hf, rfl, by simpa [hd, eq_comm] using h⟩)

theorem execRegister_cases {pin : Byte} (h : execRegister pin s = .next t) :
    (s.fault = true ∧ t = s.setResult .faulted) ∨
    (s.fault = false ∧ s.dispatching = true ∧
      t = { s with fault := true, faultCode := .registerInDispatch }.setResult .faulted) ∨
    (s.fault = false ∧ s.dispatching = false ∧ W ≤ pin.toNat ∧ t = s.setResult .pinRange) ∨
    (s.fault = false ∧ s.dispatching = false ∧ pin.toNat < W ∧ s.count.toNat = s.params.maxButtons ∧
      t = s.setResult .tableFull) ∨
    (s.fault = false ∧ s.dispatching = false ∧ pin.toNat < W ∧ s.count.toNat < s.params.maxButtons ∧
      s.count.toNat < 32 ∧ t = (s.setEntry s.count.toNat (Entry.new pin)).countAndPrime) := by
  rcases unlessFaulted_eq_next.1 h with h | ⟨hf, h⟩
  · exact .inl h
  · cases hd : s.dispatching
    · simp only [hd, Bool.false_eq_true, if_false] at h
      split at h
      next hp => exact .inr (.inr (.inl ⟨hf, rfl, hp, reject_eq_next.1 h⟩))
      next hp =>
        split at h
        next hc => exact .inr (.inr (.inr (.inl ⟨hf, rfl, by omega, hc, reject_eq_next.1 h⟩)))
        next hc =>
          obtain ⟨he, h⟩ := writeEntry_eq_next.1 h
          obtain ⟨h1, h2⟩ := hasEntry_iff.1 he
          exact .inr (.inr (.inr (.inr ⟨hf, rfl, by omega, h1, h2, by simpa [eq_comm] using h⟩)))
    · exact .inr (.inl ⟨hf, rfl, by simpa [hd, raiseFault_eq_next] using h⟩)

theorem updateEntry_cases {entry : Byte} {f : Entry → Entry} (h : updateEntry entry f s = .next t) :
    (s.fault = true ∧ t = s.setResult .faulted) ∨
    (s.fault = false ∧ s.count.toNat ≤ entry.toNat ∧ t = s.setResult .badEntry) ∨
    (s.fault = false ∧ entry.toNat < s.count.toNat ∧ entry.toNat < s.params.maxButtons ∧ entry.toNat < 32 ∧
      t = (s.setEntry entry.toNat (f (s.entry entry.toNat))).setResult .ok) := by
  rcases unlessFaulted_eq_next.1 h with h | ⟨hf, h⟩
  · exact .inl h
  · split at h
    next hc => exact .inr (.inl ⟨hf, hc, reject_eq_next.1 h⟩)
    next hc =>
      obtain ⟨he, h⟩ := writeEntry_eq_next.1 h
      obtain ⟨h1, h2⟩ := hasEntry_iff.1 he
      exact .inr (.inr ⟨hf, by omega, h1, h2, by simpa [eq_comm] using h⟩)

theorem execSeth_cases {e : Byte} {g : Edge} {p : Bool} {tok : Token} (h : execSeth e g p tok s = .next t) :
    (s.fault = true ∧ t = s.setResult .faulted) ∨
    (s.fault = false ∧ s.count.toNat ≤ e.toNat ∧ t = s.setResult .badEntry) ∨
    (s.fault = false ∧ e.toNat < s.count.toNat ∧ e.toNat < s.params.maxButtons ∧ e.toNat < 32 ∧
      t = (s.setEntry e.toNat ((s.entry e.toNat).setH g (.ofOperand p tok))).setResult .ok) :=
  updateEntry_cases h

theorem execSeta_cases {e : Byte} {g : Edge} {p : Bool} {tok : Token} (h : execSeta e g p tok s = .next t) :
    (s.fault = true ∧ t = s.setResult .faulted) ∨
    (s.fault = false ∧ s.count.toNat ≤ e.toNat ∧ t = s.setResult .badEntry) ∨
    (s.fault = false ∧ e.toNat < s.count.toNat ∧ e.toNat < s.params.maxButtons ∧ e.toNat < 32 ∧
      t = (s.setEntry e.toNat ((s.entry e.toNat).setA g (.ofOperand p tok))).setResult .ok) :=
  updateEntry_cases h

theorem execReset_cases (h : execReset s = .next t) : t = s.resetBlock.setResult .ok := by
  simpa [execReset, eq_comm] using h

/-! The bus. -/

theorem legalAccess_iff {off : Offset} {n : Nat} : legalAccess off n = true ↔ n = 4 ∧ off.toNat % 4 = 0 := by
  simp [legalAccess]

theorem busRead_cases {off : Offset} {n : Nat} (h : busRead off n s = .next t) :
    t = s.note (.readData off (s.readWindow off)) ∨ t = s.note .busError := by
  unfold busRead at h
  split at h
  · exact .inl (by simpa [eq_comm] using h)
  · exact .inr (by simpa [eq_comm] using h)

/-- R56, R59, R60, R230: a write is a bus error, is ignored, or issues a command word. -/
theorem busWrite_cases {off : Offset} {n : Nat} {v : Word} (h : busWrite off n v s = .next t) :
    t = s.note .busError ∨ t = s ∨
      (n = 4 ∧ off = cmdOffset ∧ s.rst = false ∧ executeWord v s = .next t) := by
  unfold busWrite at h
  split at h
  next hl =>
    split at h
    next hc => exact .inr (.inr ⟨(legalAccess_iff.1 hl).1, hc.1, hc.2, h⟩)
    next => exact .inr (.inl (by simpa [eq_comm] using h))
  next => exact .inl (by simpa [eq_comm] using h)

/-- R204: a word is an instruction that runs, or is rejected. -/
theorem executeWord_cases {v : Word} (h : executeWord v s = .next t) :
    (∃ i, decode v = .ok i ∧ exec i s = .next t) ∨
      t = s.setResult .faulted ∧ s.fault = true ∨ t = s.setResult .illegal ∧ s.fault = false := by
  unfold executeWord at h
  split at h
  next i hi => exact .inl ⟨i, hi, h⟩
  next =>
    rcases unlessFaulted_eq_next.1 h with ⟨hf, h⟩ | ⟨hf, h⟩
    · exact .inr (.inl ⟨h, hf⟩)
    · exact .inr (.inr ⟨reject_eq_next.1 h, hf⟩)

/-- What one act can do. -/
theorem hostAct_cases {a : HostAct} (h : hostAct a s = .next t) :
    (∃ off n, a = .read .owner off n ∧ busRead off n s = .next t) ∨
    (∃ off n v, a = .write .owner off n v ∧ busWrite off n v s = .next t) ∨
    (∃ level, a = .setRst level ∧ t = s.driveRst level) ∨
    (∃ v, a = .setSample v ∧ t = { s with sampleNext := some v }) := by
  cases a with
  | read ctx off n => cases ctx <;> simp_all [hostAct, onlyOwner]
  | write ctx off n v => cases ctx <;> simp_all [hostAct, onlyOwner]
  | setRst level => simp_all [hostAct, eq_comm]
  | setSample v => simp_all [hostAct, eq_comm]

/-- Everything a step can do: idle, or serve the first pending act. -/
theorem step_cases (h : step s = .next t) :
    (s.bus = [] ∧ t = s.held) ∨ ∃ a rest, s.bus = a :: rest ∧ hostAct a { s with bus := rest }.held = .next t := by
  unfold step serveBus at h
  split at h
  next hb => exact .inl ⟨hb, by simpa [eq_comm] using h⟩
  next a rest hb => exact .inr ⟨a, rest, hb, h⟩

theorem held_of_not_rst (h : s.rst = false) : s.held = s := by simp [State.held, h]

theorem held_of_rst (h : s.rst = true) : s.held = s.resetBlock := by simp [State.held, h]

@[simp] theorem resetBlock_resetBlock : s.resetBlock.resetBlock = s.resetBlock := rfl

/-- Everything a step can do while `rst` is released. -/
theorem step_released (hr : s.rst = false) (h : step s = .next t) :
    (s.bus = [] ∧ t = s) ∨ ∃ a rest, s.bus = a :: rest ∧
      ((∃ x, t = { s with bus := rest }.note x) ∨
       t = { s with bus := rest } ∨
       (∃ v, t = { s with bus := rest, sampleNext := some v }) ∨
       (a = .setRst true ∧ t = { s with bus := rest, rst := true }.resetBlock) ∨
       (a = .setRst false ∧ t = { s with bus := rest, rst := false }) ∨
       (∃ v, a = commandWrite v ∧ executeWord v { s with bus := rest } = .next t)) := by
  rcases step_cases h with ⟨hb, rfl⟩ | ⟨a, rest, hb, h⟩
  · exact .inl ⟨hb, held_of_not_rst hr⟩
  · refine .inr ⟨a, rest, hb, ?_⟩
    rw [held_of_not_rst (s := { s with bus := rest }) hr] at h
    rcases hostAct_cases h with ⟨off, n, rfl, h⟩ | ⟨off, n, v, rfl, h⟩ | ⟨_ | _, rfl, rfl⟩ | ⟨v, rfl, rfl⟩
    · rcases busRead_cases h with rfl | rfl <;> exact .inl ⟨_, rfl⟩
    · rcases busWrite_cases h with rfl | rfl | ⟨rfl, rfl, -, h⟩
      · exact .inl ⟨_, rfl⟩
      · exact .inr (.inl rfl)
      · exact .inr (.inr (.inr (.inr (.inr ⟨v, rfl, h⟩))))
    · exact .inr (.inr (.inr (.inr (.inl ⟨rfl, rfl⟩))))
    · exact .inr (.inr (.inr (.inl ⟨rfl, rfl⟩)))
    · exact .inr (.inr (.inl ⟨v, rfl⟩))

/-- After a step taken while `rst` is asserted every element of R20 is at its reset value. -/
theorem step_held (hr : s.rst = true) (h : step s = .next t) : t = t.resetBlock ∧ t.params = s.params := by
  rcases step_cases h with ⟨hb, rfl⟩ | ⟨a, rest, hb, h⟩
  · rw [held_of_rst hr]
    exact ⟨rfl, rfl⟩
  · rw [held_of_rst (s := { s with bus := rest }) hr] at h
    rcases hostAct_cases h with ⟨off, n, rfl, h⟩ | ⟨off, n, v, rfl, h⟩ | ⟨_ | _, rfl, rfl⟩ | ⟨v, rfl, rfl⟩
    · rcases busRead_cases h with rfl | rfl <;> exact ⟨rfl, rfl⟩
    · rcases busWrite_cases h with rfl | rfl | ⟨-, -, h', -⟩
      · exact ⟨rfl, rfl⟩
      · exact ⟨rfl, rfl⟩
      · exact absurd (hr.symm.trans h') (by decide)
    · exact ⟨rfl, rfl⟩
    · exact ⟨rfl, rfl⟩
    · exact ⟨rfl, rfl⟩

end Sys2Proof.Machine
end

