-- ==== Sys2Proof/Laws/PerInstr.lean ====
section
/-! SUPPORT. Families of facts about every instruction as syntax, one lemma per constructor. -/

namespace Sys2Proof.Laws

/-- R76: the word of an instruction matches its row of the opcode map: the opcode is the row's and every reserved bit
is 0. -/
def MatchesRow.Statement (i : Instr) : Prop := (opcodeRow i).holds (encode i) = true

theorem MatchesRow.tick : MatchesRow.Statement .tick := by
  unfold MatchesRow.Statement
  decide

theorem MatchesRow.register (pin : Byte) : MatchesRow.Statement (.register pin) := by
  simp only [MatchesRow.Statement, OpcodeRow.holds, opcodeRow, encode, beq_iff_eq]
  ext i hi
  simp only [BitVec.getElem_and, BitVec.getElem_append]
  interval_cases i <;> simp

theorem MatchesRow.seth (entry : Byte) (edge : Edge) (present : Bool) (token : Token) : MatchesRow.Statement (.seth entry edge present token) := by
  simp only [MatchesRow.Statement, OpcodeRow.holds, opcodeRow, encode, encodeE, beq_iff_eq]
  ext i hi
  simp only [BitVec.getElem_and, BitVec.getElem_append]
  interval_cases i <;> simp

theorem MatchesRow.seta (entry : Byte) (edge : Edge) (present : Bool) (token : Token) : MatchesRow.Statement (.seta entry edge present token) := by
  simp only [MatchesRow.Statement, OpcodeRow.holds, opcodeRow, encode, encodeE, beq_iff_eq]
  ext i hi
  simp only [BitVec.getElem_and, BitVec.getElem_append]
  interval_cases i <;> simp

theorem MatchesRow.ack (raised : Bool) : MatchesRow.Statement (.ack raised) := by
  simp only [MatchesRow.Statement, OpcodeRow.holds, opcodeRow, encode, beq_iff_eq]
  ext i hi
  simp only [BitVec.getElem_and, BitVec.getElem_append]
  interval_cases i <;> simp

theorem MatchesRow.reset : MatchesRow.Statement .reset := by
  unfold MatchesRow.Statement
  decide

end Sys2Proof.Laws
end

