-- ==== Sys2Proof/Laws/Window.lean ====
section
/-! SUPPORT. Where each offset of the register window leads (R51). -/

namespace Sys2Proof.Machine

theorem controlReg_reserved {off : Nat} (h : 0x030 ≤ off) : controlReg off = none := by
  rw [controlReg, List.lookup_eq_none_iff]
  intro p hp
  have : ∀ q ∈ controlMap, q.1 < 0x030 := by decide
  have := this p hp
  simp only [bne_iff_ne, ne_eq]
  omega

theorem regAt_control {off : Nat} (h : off < 0x100) : regAt off = controlReg off := by simp [regAt, h]

theorem regAt_beyond {off : Nat} (h : 0x300 ≤ off) : regAt off = none := by
  unfold regAt
  rw [if_neg (by omega), if_neg (by omega)]

theorem regAt_entry {i k : Nat} (hi : i < 32) (hk : k < 16) : regAt (0x100 + 16 * i + k) = entryReg i k := by
  have h1 : (0x100 + 16 * i + k - 0x100) / 16 = i := by omega
  have h2 : (0x100 + 16 * i + k - 0x100) % 16 = k := by omega
  rw [regAt, if_neg (by omega), if_pos (by omega), h1, h2]

/-- The word at an offset that is reserved reads 0 (R51, R59). -/
theorem readWindow_of_none {s : State} {off : Offset} (h : regAt off.toNat = none) : s.readWindow off = 0 := by
  simp [State.readWindow, h]

theorem readWindow_of_some {s : State} {off : Offset} {r : Reg} (h : regAt off.toNat = some r) :
    s.readWindow off = s.readReg r := by
  simp [State.readWindow, h]

end Sys2Proof.Machine
end

