-- ==== Sys2Proof/Machine/Assembler.lean ====
section
/-! DEFINITION. The assembler notation of 30_encoding.md R80 and R81: what the host does for one line of a program. Log 18. -/

namespace Sys2Proof.Machine

/-- Why a line is refused (R80). -/
inductive AsmError where
  /-- No syntax of R80 or R81, or a number that is neither decimal nor hexadecimal. -/
  | notALine
  /-- An operand that does not fit its field (R80: pin, entry or token > 255). -/
  | operandTooBig
deriving DecidableEq, Repr

/-- The words of a line: `;` starts a comment (R80); blanks, commas and the brackets of `ENTRY_PIN[i]` separate. -/
def wordsLoop : List Char → List Char → List String
  | [], cur => flushWord cur
  | c :: cs, cur =>
    if c = ';' then flushWord cur
    else if c ∈ [' ', '\t', ',', '[', ']'] then flushWord cur ++ wordsLoop cs []
    else wordsLoop cs (c :: cur)
where
  flushWord (cur : List Char) : List String := if cur.isEmpty then [] else [String.ofList cur.reverse]

/-- The value of a digit. -/
def digitValue (c : Char) : Option Nat :=
  let n := c.toNat
  if 48 ≤ n && n ≤ 57 then some (n - 48)
  else if 65 ≤ n && n ≤ 70 then some (n - 55)
  else if 97 ≤ n && n ≤ 102 then some (n - 87)
  else none

/-- The number that a list of digits writes in a base, going on from `acc`. -/
def digitsLoop (base : Nat) : List Char → Nat → Option Nat
  | [], acc => some acc
  | c :: cs, acc =>
    match digitValue c with
    | some d => if d < base then digitsLoop base cs (base * acc + d) else none
    | none => none

/-- R80: numbers are decimal, or hexadecimal with `0x`. -/
def number (w : String) : Option Nat :=
  match w.toList with
  | [] => none
  | '0' :: 'x' :: c :: cs => digitsLoop 16 (c :: cs) 0
  | cs => digitsLoop 10 cs 0

/-- A number that must fit in a field of `n` bits. -/
def operand (n : Nat) (w : String) : Except AsmError (BitVec n) :=
  match number w with
  | some v => if v < 2 ^ n then .ok (BitVec.ofNat n v) else .error .operandTooBig
  | none => .error .notALine

/-- R80: `rise` or `fall`. -/
def edgeWord (w : String) : Except AsmError Edge :=
  if w = "rise" then .ok .rise else if w = "fall" then .ok .fall else .error .notALine

/-- R80: a token or `none`. -/
def tokenWord (w : String) : Except AsmError (Option Token) :=
  if w = "none" then .ok none else (operand 8 w).map some

/-- SETH or SETA with the optional token of R80. -/
def setInstr (mk : Byte → Edge → Bool → Token → Instr) (entry edge token : String) : Except AsmError Instr := do
  let e ← operand 8 entry
  let g ← edgeWord edge
  match ← tokenWord token with
  | some t => pure (mk e g true t)
  | none => pure (mk e g false 0)

/-- `key=value`: the value, when the word starts with the key and `=`. -/
def keyed (key : String) (w : String) : Option String :=
  if (key.toList ++ ['=']).isPrefixOf w.toList then some (String.ofList (w.toList.drop (key.length + 1))) else none

/-- The optional `key=value` at the head of the words of a BUTTON line. -/
def optionalToken (key : String) : List String → Except AsmError (Option Token × List String)
  | [] => .ok (none, [])
  | w :: ws =>
    match keyed key w with
    | some v => do pure (some (← operand 8 v), ws)
    | none => .ok (none, w :: ws)

/-- R81: BUTTON, `n` the value of COUNT before its REGISTER. -/
def buttonLine (n : Byte) (pin : String) (opts : List String) : Except AsmError (List Instr) := do
  let p ← operand 8 pin
  let (rise, opts) ← optionalToken "rise" opts
  let (fall, opts) ← optionalToken "fall" opts
  let (rargs, opts) ← optionalToken "rargs" opts
  let (fargs, opts) ← optionalToken "fargs" opts
  if opts = [] then pure (pseudoButton n p rise fall rargs fargs) else throw .notALine

/-- R80, R81: the commands of a line. -/
def commandLine (n : Byte) : List String → Except AsmError (List Instr)
  | ["TICK"] => .ok [.tick]
  | ["REGISTER", pin] => do pure [.register (← operand 8 pin)]
  | ["SETH", entry, edge, token] => do pure [← setInstr .seth entry edge token]
  | ["SETA", entry, edge, token] => do pure [← setInstr .seta entry edge token]
  | ["ACK", "ok"] => .ok [.ack false]
  | ["ACK", "raised"] => .ok [.ack true]
  | ["RESET"] => .ok [.reset]
  | ["CLRH", entry, edge] => do pure [pseudoClrh (← operand 8 entry) (← edgeWord edge)]
  | ["CLRA", entry, edge] => do pure [pseudoClra (← operand 8 entry) (← edgeWord edge)]
  | "BUTTON" :: pin :: opts => buttonLine n pin opts
  | _ => .error .notALine

/-- R51: the offset of a register by its name. -/
def offsetOfName : List String → Option Offset
  | ["ID"] => some 0x000
  | ["CMD"] => some 0x004
  | ["STATUS"] => some 0x008
  | ["RAW_STATE"] => some 0x00C
  | ["COUNTER0"] => some 0x010
  | ["COUNTER1"] => some 0x014
  | ["LAST_STATE"] => some 0x018
  | ["DELTA"] => some 0x01C
  | ["RISING"] => some 0x020
  | ["FALLING"] => some 0x024
  | ["EVENT"] => some 0x028
  | ["CONFIG"] => some 0x02C
  | ["ENTRY_PIN", i] => entryOffset 0x100 i
  | ["ENTRY_RISE", i] => entryOffset 0x104 i
  | ["ENTRY_FALL", i] => entryOffset 0x108 i
  | _ => none
where
  entryOffset (base : Offset) (i : String) : Option Offset :=
    match number i with
    | some k => if k < 32 then some (base + BitVec.ofNat 10 (16 * k)) else none
    | none => none

/-- The `sample=` annotation of a TICK or REGISTER line (R80, which says only that it stands on the line). DESIGN CHOICE:
it is accepted as the last word of the line alone, so at most once, with a value of 32 bits. Log 18. -/
def splitSample : List String → Except AsmError (List String × List HostAct)
  | [] => .ok ([], [])
  | w :: ws =>
    match keyed "sample" w with
    | some v => if ws = [] then (operand 32 v).map fun s => ([], [.setSample s]) else .error .notALine
    | none => (splitSample ws).map fun r => (w :: r.1, r.2)

/-- Whether a line's command reads a sample (R80: the annotation stands on a TICK or REGISTER line). -/
def readsSample : List String → Bool
  | "TICK" :: _ => true
  | "REGISTER" :: _ => true
  | _ => false

/-- R80, R81: what one line of a program has the outside world do; `n` is the value of COUNT before the line. -/
def assembleLine (n : Byte) (line : String) : Except AsmError (List HostAct) := do
  match wordsLoop line.toList [] with
  | [] => pure []
  | "READ" :: name =>
    match offsetOfName name with
    | some off => pure [.read .owner off 4]
    | none => throw .notALine
  | ws =>
    let (cmd, sample) ← splitSample ws
    if sample ≠ [] ∧ readsSample cmd = false then throw .notALine
    pure (sample ++ (← commandLine n cmd).map fun i => commandWrite (encode i))

end Sys2Proof.Machine
end

