-- ==== Sys2Proof/Tests/Slice0.lean ====
section
/-! SUPPORT. Small tests with expected results from spec/95_test_vectors.md, and for each statement with hypotheses a
concrete state and operands that meet them together. -/

namespace Sys2Proof.Tests

open Sys2Proof.Machine

/-! Well-formedness: the one check, refused for each of the two constructors it concerns (R10, R78). -/

theorem test_seth_absent_token_nonzero_refused : (Instr.seth 0 .fall false 0xAB).wellFormed = false := by decide
theorem test_seta_absent_token_nonzero_refused : (Instr.seta 0 .rise false 1).wellFormed = false := by decide
theorem test_seth_absent_token_zero_accepted : (Instr.seth 0 .fall false 0).wellFormed = true := by decide

/-! Decoding (L2.3): words written out bit by bit. -/

theorem test_decode_tick : decode 0b00010000000000000000000000000000 = .ok .tick := by decide
theorem test_decode_register : decode 0b00100000000000000000000011111111 = .ok (.register 255) := by decide
theorem test_decode_seth : decode 0b00110000000000001000000100001010 = .ok (.seth 0 .fall true 0x0A) := by decide
theorem test_decode_seth_absent : decode 0x300080AB = .ok (.seth 0 .fall false 0) := by decide
theorem test_decode_seta : decode 0b01000000111111111000000100000000 = .ok (.seta 255 .fall true 0) := by decide
theorem test_decode_ack : decode 0b01010000000000000000000000000001 = .ok (.ack true) := by decide
theorem test_decode_reset : decode 0b11110000000000000000000000000000 = .ok .reset := by decide
theorem test_decode_illegal :
    [0x00000000, 0x10000001, 0x20000100, 0x30008200, 0x31000000, 0x50000002, 0x60000000, 0xE0000000, 0xF0000001,
      0xFFFFFFFF].all (fun v => (decode v).toOption.isNone) = true := by decide
theorem test_encode_examples :
    encode (.seth 1 .fall true 0x0A) = 0x3001810A ∧ encode (.seta 0 .rise true 0x03) = 0x40000103 := by decide
theorem test_table_word : decodeTableWord 32 0x50000001 = some (.ack true) ∧ decodeTableWord 32 0x60000000 = none := by
  decide

/-! States. -/

/-- Entry 0 of L1.3: pin 4, h[FALL] = (1, 0x0A). -/
def pin4 : Entry := ⟨4, .absent, ⟨true, 0x0A⟩, .absent, .absent⟩

/-- R170's example: RAW = LAST = 0x10, lane 4 at count 2, and the environment's next sample is 0. -/
def ready : State :=
  { State.reset.setEntry 0 pin4 with count := 1, raw := 0x10, last := 0x10, c1 := 0x10, sampleNext := some 0 }

/-- Setup S of L2.6: the event of entry 0 is pending. -/
def waiting : State :=
  { State.reset.setEntry 0 pin4 with
    count := 1, last := 0x10, c0 := 0x10, c1 := 0x10, delta := 0x10, falling := 0x10,
    dispatching := true, cursor := ⟨0, .fall⟩, event := 0x82000A04 }

/-- X1 of L2.6: the fault of a reentrant TICK. -/
def faulted : State := { waiting with fault := true, faultCode := .reentrantTick, result := .faulted }

/-- A state with one act pending. -/
def pending (s : State) (a : HostAct) : State := { s with bus := [a] }

/-- Whether an outcome is a next state with a property. -/
def holds (r : Result) (p : State → Bool) : Bool :=
  match r with
  | .next t => p t
  | _ => false

/-! The instructions: R170's example, T2 and L1.7, R177's example, T5, R141's example, X5, R144, R4, R145, X1c. -/

theorem test_tick_presents_event :
    holds (exec .tick ready) (fun t => t.raw == 0 && t.falling == 0x10 && t.event == 0x82000A04 && t.last == 0x10
      && t.statusWord == 0x00010010) = true := by decide
theorem test_tick_without_handler_finishes :
    holds (exec .tick { ready with raw := 0, last := 0, sampleNext := some 0x10 })
      (fun t => t.rising == 0x10 && t.event == 0 && t.last == 0x10 && t.statusWord == 0x00010000) = true := by decide
theorem test_ack_ok_finishes :
    holds (exec (.ack false) waiting) (fun t => t.event == 0 && t.last == 0 && t.statusWord == 0x00010000) = true := by
  decide
theorem test_ack_raised_keeps_last :
    holds (exec (.ack true) waiting) (fun t => t.event == 0 && t.last == 0x10 && t.statusWord == 0x00010006) = true := by
  decide
theorem test_register_appends_and_primes :
    holds (exec (.register 4) { State.reset with sampleNext := some 0x10 }) (fun t => t.raw == 0x10 && t.last == 0x10
      && t.readWindow 0x100 == 0x80000004 && t.statusWord == 0x00010000) = true := by decide
theorem test_register_in_dispatch_faults_first :
    holds (exec (.register 40) { waiting with params := ⟨1, false⟩ }) (fun t => t.statusWord == 0x00010237) = true := by
  decide
theorem test_seth_then_bad_entry :
    holds (exec (.seth 0 .rise true 0x0B) waiting) (fun t => t.readWindow 0x104 == 0x0000010B && t.event == 0x82000A04)
      = true ∧
    holds (exec (.seth 1 .rise true 0x0B) ready) (fun t => t.statusWord == 0x00010004) = true := by decide
theorem test_seta_sets_arguments :
    holds (exec (.seta 0 .fall true 0x03) ready) (fun t => t.readWindow 0x108 == 0x0103010A) = true := by decide
theorem test_reset_leaves_fault :
    holds (exec .reset faulted) (fun t => t.statusWord == 0 && t.event == 0 && t.count == 0 && t.c1 == 0) = true := by
  decide

/-! The engine (E8: the whole table of R102 in one step), the edge detector (L2.2), two entries on one pin (R5). -/

theorem test_engine_e8 :
    let t := { State.reset with raw := 0xFF00, c1 := 0xF0F0, c0 := 0xCCCC }.debounce 0xAAAA
    t.raw = 0xEF20 ∧ t.c1 = 0x1428 ∧ t.c0 = 0x1122 ∧ t.delta = 0x55AA := by decide
theorem test_edges : risingEdges 0x0000FFFF 0x00FF00FF = 0x0000FF00 ∧ fallingEdges 0x0000FFFF 0x00FF00FF = 0x00FF0000 := by
  decide
theorem test_second_entry_on_the_same_pin :
    holds (exec (.ack false) { waiting.setEntry 1 ⟨4, .absent, ⟨true, 0x0B⟩, .absent, .absent⟩ with count := 2 })
      (fun t => t.event == 0x86000B04 && t.dispatching) = true := by decide

/-! The step: L2.6 X1, X4, X6; L2.7 M2, M5, M6; and the assembler (R80, R81). -/

theorem test_step_reentrant_tick :
    holds (step (pending waiting (commandWrite 0x10000000))) (fun t => t.statusWord == 0x00010137 && t.raw == 0) = true := by
  decide
theorem test_step_illegal_word :
    holds (step (pending waiting (commandWrite 0x10000001))) (fun t => t.statusWord == 0x00010011) = true ∧
    holds (step (pending faulted (commandWrite 0xF0000001))) (fun t => t.statusWord == 0x00010137) = true := by decide
theorem test_step_byte_write_is_bus_error :
    holds (step (pending ready (.write .owner 0x004 1 0x10000000))) (fun t => t.trace == [.busError] && t.raw == 0x10)
      = true := by decide
theorem test_config_word : State.reset.readWindow 0x02C = 0x00082020 := by decide
theorem test_with_fetch_word :
    holds (step (State.reset.withFetchWord 32 0xF0000000)) (fun t => t.trace == [.result .ok]) = true := by decide
theorem test_assemble_button :
    assembleLine 1 "BUTTON 5, rise=0x0C ; P1" = .ok [commandWrite 0x20000005, commandWrite 0x3001010C] := by decide
theorem test_assemble_tick_and_read :
    assembleLine 0 "TICK   sample=0x20" = .ok [.setSample 0x20, commandWrite 0x10000000] ∧
    assembleLine 0 "READ ENTRY_FALL[1]" = .ok [.read .owner 0x118 4] := by decide
theorem test_assemble_refuses_big_operand : assembleLine 0 "REGISTER 256" = .error .operandTooBig := by decide

/-! ## Witnesses: for each statement with hypotheses, a state and operands that meet them. -/

theorem witness_DecodeInvertsEncode :
    (Instr.seth 255 .fall false 0).WellFormed ∧ (Instr.seta 0 .rise true 255).WellFormed ∧
    (Instr.register 255).WellFormed ∧ (Instr.ack true).WellFormed ∧ Instr.tick.WellFormed ∧ Instr.reset.WellFormed := by
  decide
theorem witness_DecodedWordReencodes :
    decode 0x300080AB = .ok (.seth 0 .fall false 0) ∧ decode 0x2000001F = .ok (.register 31) := by decide
theorem witness_DecodedOperandsAreBitSlices :
    decode 0x200000FF = .ok (.register 255) ∧ decode 0x3000810A = .ok (.seth 0 .fall true 0x0A) ∧
    decode 0x40FF0055 = .ok (.seta 255 .rise false 0) ∧ decode 0x50000001 = .ok (.ack true) := by decide
theorem witness_IllegalWordIsRejected :
    (∀ r ∈ opcodeMap, (0 : Word) &&& r.mask ≠ r.matchBits) ∧ (pending ready (commandWrite 0)).rst = false ∧
    (pending ready (commandWrite 0)).bus = [commandWrite 0] ∧ ready.fault = false ∧ faulted.fault = true := by decide
theorem witness_EngineFollowsLaneStateMachine :
    31 < W ∧ (0 : Word).getLsbD 31 = ready.raw.getLsbD 31 ∧ (0 : Word).getLsbD 4 ≠ ready.raw.getLsbD 4 := by decide
theorem witness_EngineLanesAreIndependent :
    4 < W ∧ (0 : Word).getLsbD 4 = (1 : Word).getLsbD 4 ∧ ready.raw.getLsbD 4 = ready.raw.getLsbD 4 := by decide
theorem witness_EngineRunRefinesLaneMachine : 31 < W ∧ [(1 : Word), 1, 1].length = 3 := by decide
theorem witness_AcceptanceTakesThreeSamples : 31 < W ∧ State.reset.laneCount 31 = 0 ∧
    (0x80000000 : Word).getLsbD 31 ≠ State.reset.raw.getLsbD 31 ∧ (0 : Word).getLsbD 31 = State.reset.raw.getLsbD 31 := by
  decide
theorem witness_AgreeingSampleClearsLane : 4 < W ∧ (0x10 : Word).getLsbD 4 = ready.raw.getLsbD 4 := by decide
theorem witness_RevertAfterCommitTakesFourSamples :
    4 < W ∧ waiting.laneCount 4 = 3 ∧ (0x10 : Word).getLsbD 4 ≠ waiting.raw.getLsbD 4 := by decide
theorem witness_FlipMaskIsBothCounters :
    4 < W ∧ (ready.debounce 0).raw.getLsbD 4 ≠ ready.raw.getLsbD 4 := by decide
theorem witness_TickSamplesDebouncesAndLatches : ready.fault = false ∧ ready.dispatching = false := by decide

/-- A TICK that presents (0, FALL), and one of the same state with no handlers that finishes. -/
theorem witness_TickPresentsFirstMatch :
    ready.event = 0 ∧ exec .tick ready = .next ready.sampleAndLatch.dispatchEdges ∧
    ready.sampleAndLatch.dispatchEdges.FirstMatchFrom 0 ⟨0, .fall⟩ ∧ State.reset.NoMatchFrom 0 := by
  refine ⟨rfl, rfl, ⟨by decide, by decide, fun q _ h => ?_⟩, fun q _ h => absurd h.1 (by simp [State.reset, State.resetWith])⟩
  obtain rfl : q = ⟨0, .rise⟩ := rank_inj (Nat.lt_one_iff.1 h)
  decide

theorem witness_TickEdgesAreTheFlipsWhenLastIsRaw :
    ready.last = ready.raw ∧ exec .tick ready = .next ready.sampleAndLatch.dispatchEdges := ⟨rfl, rfl⟩

/-- `waiting` with a second entry that handles the same edge. -/
def waitingTwo : State := { waiting.setEntry 1 ⟨4, .absent, ⟨true, 0x0B⟩, .absent, .absent⟩ with count := 2 }

theorem witness_AckOkResumesWalkAfterCursor :
    waitingTwo.fault = false ∧ waitingTwo.dispatching = true ∧
    waitingTwo.FirstMatchFrom (waitingTwo.cursor.pos.rank + 1) ⟨1, .fall⟩ ∧
    waiting.NoMatchFrom (waiting.cursor.pos.rank + 1) := by
  refine ⟨rfl, rfl, ⟨by decide, by decide, fun q h1 h2 => ?_⟩, fun q h1 h2 => ?_⟩
  · have h2 : q.rank < 3 := h2
    have h1 : 2 ≤ q.rank := h1
    obtain rfl : q = ⟨1, .rise⟩ := rank_inj (by simp [Pos.rank, bitOfEdge] at *; omega)
    decide
  · have h1 : 2 ≤ q.rank := h1
    have := rank_lt_of_matchesAt h2
    have hc : waiting.count.toNat = 1 := by decide
    omega

theorem witness_AckRaisedAbortsWalk : waiting.fault = false ∧ waiting.dispatching = true ∧
    waiting.params.abortCommitsLast = false ∧ { waiting with params := ⟨32, true⟩ }.params.abortCommitsLast = true := by
  decide
theorem witness_AckWithoutEventIsRejected : ready.fault = false ∧ ready.dispatching = false := by decide

/-- The invariant from finitely many checks: what stands beyond entry 31 reads as the all-zero record. -/
theorem blockInv_of_checks {s : State} (h1 : s.params.Legal) (h2 : s.count.toNat ≤ s.params.maxButtons)
    (h3 : ∀ i : Fin 32, i.val < s.count.toNat → (s.entry i).pin.toNat < W)
    (h4 : ∀ i : Fin 32, s.count.toNat ≤ i.val → s.entry i = Entry.zero)
    (h5 : ∀ i : Fin 32, ∀ o ∈ [(s.entry i).hRise, (s.entry i).hFall, (s.entry i).aRise, (s.entry i).aFall],
      o.present = false → o.token = 0)
    (h6 : s.rising &&& s.falling = 0) (h7 : s.dispatching = false → s.event = 0)
    (h8 : s.dispatching = true → s.cursor.entry.toNat < s.count.toNat)
    (h9 : s.dispatching = true → laneBit (s.edgeMask s.cursor.phase) (s.entry s.cursor.entry.toNat).pin = true) :
    BlockInv s where
  params := h1
  countFits := h2
  pinsInRange i hi := h3 ⟨i, by have := h1.2; omega⟩ hi
  unusedZero i hi := if h : i < 32 then h4 ⟨i, h⟩ hi else entry_of_ge (by omega)
  tokensCanonical i g := by
    by_cases h : i < 32
    · have := h5 ⟨i, h⟩
      simp only [List.mem_cons, forall_eq_or_imp, List.not_mem_nil, false_imp_iff, implies_true, and_true] at this
      obtain ⟨a, b, c, d⟩ := this
      cases g
      · exact ⟨a, c⟩
      · exact ⟨b, d⟩
    · rw [entry_of_ge (by omega)]
      cases g <;> exact ⟨fun _ => rfl, fun _ => rfl⟩
  edgesDisjoint := h6
  idleEvent := h7
  cursorRegistered := h8
  cursorEdge := h9

theorem blockInv_waiting : BlockInv waiting := by apply blockInv_of_checks <;> decide
theorem blockInv_waitingTwo : BlockInv waitingTwo := by apply blockInv_of_checks <;> decide
theorem blockInv_ready : BlockInv ready := by apply blockInv_of_checks <;> decide

theorem witness_WalkOrderIsStrictlyIncreasing :
    BlockInv waitingTwo ∧ waitingTwo.dispatching = true ∧ waitingTwo.fault = false ∧
    exec (.ack false) waitingTwo = .next (waitingTwo.acknowledge false) ∧
    (waitingTwo.acknowledge false).dispatching = true := ⟨blockInv_waitingTwo, rfl, rfl, rfl, by decide⟩
theorem witness_WalkFreezesDebounceState :
    waiting.dispatching = true ∧ Instr.ack false ≠ .reset ∧
    exec (.ack false) waiting = .next (waiting.acknowledge false) := ⟨rfl, by decide, rfl⟩

/-- `waitingTwo` with entry 1 not handling the edge yet. -/
def waitingForHandler : State := { waitingTwo.setEntry 1 ⟨4, .absent, .absent, .absent, .absent⟩ with count := 2 }

theorem blockInv_waitingForHandler : BlockInv waitingForHandler := by apply blockInv_of_checks <;> decide

theorem witness_HandlerSetDuringWalkAddsEvent :
    BlockInv waitingForHandler ∧ waitingForHandler.fault = false ∧ waitingForHandler.dispatching = true ∧
    (1 : Byte).toNat < waitingForHandler.count.toNat ∧
    waitingForHandler.cursor.pos.rank < (Pos.mk (1 : Byte).toNat .fall).rank ∧
    laneBit (waitingForHandler.edgeMask .fall) (waitingForHandler.entry (1 : Byte).toNat).pin = true ∧
    ¬ waitingForHandler.MatchesAt ⟨1, .rise⟩ ∧
    (∀ q : Pos, waitingForHandler.cursor.pos.rank < q.rank → q.rank < (Pos.mk (1 : Byte).toNat .fall).rank →
      ¬ waitingForHandler.MatchesAt q) ∧
    ∃ t u, exec (.seth 1 .fall true 0x0B) waitingForHandler = .next t ∧ exec (.ack false) t = .next u := by
  refine ⟨blockInv_waitingForHandler, rfl, rfl, by decide, by decide, by decide, by decide, fun q h1 h2 => ?_, _, _, rfl, rfl⟩
  have h1 : 1 < q.rank := h1
  have h2 : q.rank < 3 := h2
  obtain rfl : q = ⟨1, .rise⟩ := rank_inj (by simp [Pos.rank, bitOfEdge] at *; omega)
  decide

theorem witness_AbortedEdgesReappear :
    let s := { waiting with sampleNext := some 0 }
    s.fault = false ∧ s.dispatching = true ∧ s.params.abortCommitsLast = false ∧ 4 < W ∧
    (∃ t u, exec (.ack true) s = .next t ∧ exec .tick t = .next u ∧ u.raw.getLsbD 4 = s.raw.getLsbD 4) :=
  ⟨rfl, rfl, rfl, by decide, _, _, rfl, rfl, by decide⟩
theorem witness_RegisterAppendsAndPrimes :
    ready.fault = false ∧ ready.dispatching = false ∧ (31 : Byte).toNat < 32 ∧
    ready.count.toNat < ready.params.maxButtons ∧ ready.params.Legal := by decide
theorem witness_RegisterRejections :
    ready.fault = false ∧ ready.dispatching = false ∧ 32 ≤ (32 : Byte).toNat ∧ (31 : Byte).toNat < 32 ∧
    { ready with params := ⟨1, false⟩ }.count.toNat = { ready with params := ⟨1, false⟩ }.params.maxButtons := by decide
theorem witness_PrimedLaneAtCountTwoCommitsAtOnce :
    4 < W ∧ ready.laneCount 4 = 2 ∧ ∃ t u, exec (.register 5) ready = .next t ∧ t.result = .ok ∧
      { t with sampleNext := some 0x10 }.sampleValue.getLsbD 4 ≠ t.raw.getLsbD 4 ∧
      exec .tick { t with sampleNext := some 0x10 } = .next u := ⟨by decide, by decide, _, _, rfl, rfl, by decide, rfl⟩
theorem witness_SetReplacesOneFieldOfOneEntry :
    ready.fault = false ∧ (0 : Byte).toNat < ready.count.toNat ∧ ready.count.toNat ≤ ready.params.maxButtons ∧
    ready.params.Legal := by decide
theorem witness_SetOfUnregisteredEntryIsRejected : ready.fault = false ∧ ready.count.toNat ≤ (1 : Byte).toNat := by
  decide
theorem witness_MissingTableEntryStops :
    { ready with params := ⟨0, false⟩ }.fault = false ∧ { ready with params := ⟨0, false⟩ }.dispatching = false ∧
    (31 : Byte).toNat < 32 ∧
    { ready with params := ⟨0, false⟩ }.params.maxButtons < { ready with params := ⟨0, false⟩ }.count.toNat ∧
    (0 : Byte).toNat < { ready with params := ⟨0, false⟩ }.count.toNat ∧
    { ready with params := ⟨0, false⟩ }.params.maxButtons ≤ (0 : Byte).toNat := by decide
theorem witness_EntriesChangeOnlyByTheirCommands :
    BlockInv ready ∧ Instr.tick ≠ .reset ∧ exec .tick ready = .next ready.sampleAndLatch.dispatchEdges ∧
    0 < ready.count.toNat := ⟨blockInv_ready, by decide, rfl, by decide⟩
theorem witness_ButtonExpansionBuildsEntry :
    ready.fault = false ∧ ready.dispatching = false ∧ (5 : Byte).toNat < 32 ∧
    ready.count.toNat < ready.params.maxButtons ∧ ready.params.Legal := by decide
theorem witness_AssertedRstHoldsResetValues :
    (pending ready (.setRst true)).bus = [.setRst true] ∧
    (pending { ready with rst := true } (commandWrite 0x10000000)).rst = true ∧
    (pending { ready with rst := true } (commandWrite 0x10000000)).bus = [commandWrite 0x10000000] ∧
    (0x3FC : Offset).toNat % 4 = 0 ∧
    (pending { ready with rst := true } (.read .owner 0x3FC 4)).bus = [.read .owner 0x3FC 4] ∧
    (pending { ready with rst := true } (.setRst false)).bus = [.setRst false] ∧
    (pending ready (.setRst false)).rst = false ∧
    (pending { ready with rst := true } (.setSample 0x20)).bus = [.setSample 0x20] ∧
    (pending ready (.setSample 0x20)).rst = false := by decide
theorem witness_FaultEntryWritesExactlyThree : waiting.fault = false ∧ waiting.dispatching = true := by decide
theorem witness_FaultedBlockIgnoresWords :
    (pending faulted (commandWrite 0xF0000001)).fault = true ∧ (pending faulted (commandWrite 0xF0000001)).rst = false ∧
    (pending faulted (commandWrite 0xF0000001)).bus = [commandWrite 0xF0000001] ∧ (0xF0000001 : Word) ≠ 0xF0000000 := by
  decide
theorem witness_OnlyResetClearsFault :
    ¬ (pending faulted (commandWrite 0xF0000000)).Safe ∧
    ∃ t, step (pending faulted (commandWrite 0xF0000000)) = .next t ∧ t.Safe :=
  ⟨by simp [State.Safe, pending, faulted], _, rfl, rfl⟩
theorem witness_OnlyTickStartsWaiting :
    ready.evtValid = false ∧ ∃ t, step (pending ready (commandWrite 0x10000000)) = .next t ∧ t.evtValid = true :=
  ⟨rfl, _, rfl, by decide⟩
theorem witness_OnlyAckOrResetEndsWaiting :
    waiting.evtValid = true ∧ ∃ t, step (pending waiting (commandWrite 0x50000001)) = .next t ∧ t.evtValid = false :=
  ⟨rfl, _, rfl, by decide⟩
theorem witness_StepRunsDecodedInstruction :
    (pending ready (commandWrite 0x10000000)).rst = false ∧
    (pending ready (commandWrite 0x10000000)).bus = [commandWrite 0x10000000] ∧ decode 0x10000000 = .ok .tick := by decide
theorem witness_IdleStepChangesNothing : ready.bus = [] ∧ ready.rst = false := by decide
theorem witness_EveryCommandWritesResultOnce : exec (.ack false) waiting = .next (waiting.acknowledge false) := rfl
theorem witness_SampleReadOnceByTickAndRegisterAlone :
    (∃ t, exec .tick ready = .next t ∧ t.result = .ok) ∧ (∃ t, exec (.register 5) ready = .next t ∧ t.result = .ok) ∧
    ready.fault = false ∧ ready.dispatching = false :=
  ⟨⟨_, rfl, by decide⟩, ⟨_, rfl, rfl⟩, rfl, rfl⟩
theorem witness_StepKeepsConstants : ∃ t, step (pending ready (commandWrite 0x10000000)) = .next t := ⟨_, rfl⟩

/-- The second clause's premise: a step that is refused, for a read and for a write. -/
theorem witness_EveryCommandCompletesUnderInvariant :
    BlockInv ready ∧ step (pending ready (.read .other 0x008 4)) = .refused .secondContext ∧
    step (pending ready (.write .other 0x004 4 0x10000000)) = .refused .secondContext := ⟨blockInv_ready, rfl, rfl⟩
theorem witness_SecondContextIsRefused :
    (pending ready (.read .other 0x008 4)).bus = [.read .other 0x008 4] ∧
    (pending ready (.write .other 0x004 4 0)).bus = [.write .other 0x004 4 0] := by decide
theorem witness_InvariantsHoldAtReset : Config.Params.Legal ⟨1, true⟩ ∧ Config.Params.Legal ⟨32, false⟩ := by decide
theorem witness_StepKeepsBlockInv :
    BlockInv (pending ready (commandWrite 0x10000000)) ∧ ∃ t, step (pending ready (commandWrite 0x10000000)) = .next t :=
  ⟨by apply blockInv_of_checks <;> decide, _, rfl⟩
theorem witness_StepKeepsFaultInv :
    FaultInv (pending faulted (commandWrite 0x50000000)) ∧
    ∃ t, step (pending faulted (commandWrite 0x50000000)) = .next t := ⟨⟨by decide, by decide, by decide⟩, _, rfl⟩
theorem witness_StepKeepsEventInv :
    BlockInv (pending waiting (commandWrite 0x50000000)) ∧ EventInv (pending waiting (commandWrite 0x50000000)) ∧
    ∃ t, step (pending waiting (commandWrite 0x50000000)) = .next t :=
  ⟨by apply blockInv_of_checks <;> decide, by unfold EventInv; decide, _, rfl⟩
theorem witness_StepKeepsHeldInv :
    HeldInv (pending { State.reset with rst := true } (commandWrite 0x10000000)) ∧
    ∃ t, step (pending { State.reset with rst := true } (commandWrite 0x10000000)) = .next t :=
  ⟨by unfold HeldInv; decide, _, rfl⟩
theorem witness_BadAccessIsBusErrorWithoutEffect :
    (1 ≠ 4 ∨ (0x004 : Offset).toNat % 4 ≠ 0) ∧ (4 ≠ 4 ∨ (0x3FE : Offset).toNat % 4 ≠ 0) ∧
    (pending ready (.read .owner 0x3FE 4)).rst = false ∧
    (pending ready (.read .owner 0x3FE 4)).bus = [.read .owner 0x3FE 4] ∧
    (pending ready (.write .owner 0x004 1 0)).bus = [.write .owner 0x004 1 0] := by decide
theorem witness_ReadsHaveNoSideEffect :
    (0x028 : Offset).toNat % 4 = 0 ∧ (pending ready (.read .owner 0x028 4)).bus = [.read .owner 0x028 4] ∧
    ready.rst = false ∧ ∃ t, step (pending ready (.read .owner 0x028 4)) = .next t := ⟨by decide, rfl, rfl, _, rfl⟩

/-- Each clause at the ends of its range; 0x2FC is the reserved word of entry 31, 0x120 an entry beyond MAX_BUTTONS = 2. -/
theorem witness_OtherWritesIgnoredAndReservedReadsZero :
    (0x008 : Offset) ≠ 0x004 ∧ (pending ready (.write .owner 0x008 4 0)).bus = [.write .owner 0x008 4 0] ∧
    (0x030 ≤ (0x030 : Offset).toNat ∧ (0x0FC : Offset).toNat < 0x100) ∧ 0x300 ≤ (0x300 : Offset).toNat ∧
    (0x2FC : Offset).toNat % 16 = 12 ∧
    { ready with params := ⟨2, false⟩ }.params.maxButtons ≤ ((0x120 : Offset).toNat - 0x100) / 16 := by decide
theorem witness_EventFields : 0 < 32 ∧ 31 < 32 ∧ eventWord ⟨0, .fall⟩ pin4 = 0x82000A04 := by decide
theorem witness_EntryWindowFields : 0 < 32 ∧ 31 < 32 ∧ 31 < ready.params.maxButtons := by decide
theorem witness_ConfigFields : ready.params.Legal ∧ ∃ t, step (pending ready (commandWrite 0x10000000)) = .next t :=
  ⟨by decide, _, rfl⟩

end Sys2Proof.Tests
end

section
/-! The obligations of 00_scope.md: the trace of a command, the constants of the implementation, the input ports, and the
invariants at reset. -/

namespace Sys2Proof.Machine

variable {s t u : State}

/-! SETH and SETA are one operation on two fields (R144, R145). -/

theorem exec_seth (s : State) (e : Byte) (g : Edge) (p : Bool) (tok : Token) :
    exec (.seth e g p tok) s = updateEntry e (fun x => x.setH g (.ofOperand p tok)) s := rfl

theorem exec_seta (s : State) (e : Byte) (g : Edge) (p : Bool) (tok : Token) :
    exec (.seta e g p tok) s = updateEntry e (fun x => x.setA g (.ofOperand p tok)) s := rfl

/-! ## RESULT in the trace (R11, R32) -/

/-- Between `s` and `t` the trace gained exactly one RESULT item, the value that RESULT holds in `t`. -/
def WritesResultOnce (s t : State) : Prop :=
  ∃ added, t.trace = added ++ s.trace ∧ added.filter TraceItem.isResult = [.result t.result]

theorem writesResultOnce_setResult (s : State) (c : ResultCode) : WritesResultOnce s (s.setResult c) :=
  ⟨[.result c], rfl, rfl⟩

/-- What happens before, without an item in the trace, does not count. -/
theorem WritesResultOnce.of_trace_eq (hu : u.trace = s.trace) (h : WritesResultOnce u t) : WritesResultOnce s t := by
  obtain ⟨added, htrace, hfilter⟩ := h
  exact ⟨added, hu ▸ htrace, hfilter⟩

/-- An item before RESULT that is no RESULT does not count. -/
theorem WritesResultOnce.of_note {x : TraceItem} (hx : x.isResult = false) (h : WritesResultOnce (s.note x) t) :
    WritesResultOnce s t := by
  obtain ⟨added, htrace, hfilter⟩ := h
  exact ⟨added ++ [x], by simp [htrace], by simp [hfilter, hx]⟩

/-- What happens after, with RESULT and the trace kept, does not count. -/
theorem WritesResultOnce.keep (h : WritesResultOnce s t) (hr : u.result = t.result) (ht : u.trace = t.trace) :
    WritesResultOnce s u := by
  unfold WritesResultOnce
  rwa [hr, ht]

/-- The upcall adds its event after RESULT and is no RESULT (R175). -/
theorem WritesResultOnce.present (h : WritesResultOnce s t) (p : Pos) : WritesResultOnce s (t.present p) := by
  obtain ⟨added, htrace, hfilter⟩ := h
  exact ⟨.presented (eventWord p (t.entry p.entry)) :: added, by simp [htrace], by simpa [TraceItem.isResult] using hfilter⟩

/-- R170: TICK writes RESULT when it latches; dispatching the edges adds no second one. -/
theorem writesResultOnce_tick (s : State) : WritesResultOnce s s.sampleAndLatch.dispatchEdges := by
  have hlatch : WritesResultOnce s s.sampleAndLatch := (writesResultOnce_setResult _ .ok).of_trace_eq rfl
  rcases dispatchEdges_cases s.sampleAndLatch with ⟨-, -, h⟩ | ⟨-, q, -, h⟩ | ⟨-, -, h⟩ <;> rw [h]
  · exact hlatch.keep rfl rfl
  · exact hlatch.present q
  · exact hlatch.keep rfl rfl

/-- R177: an acknowledgement notes the event it ends and writes RESULT once, however the walk goes on. -/
theorem writesResultOnce_acknowledge (s : State) (raised : Bool) : WritesResultOnce s (s.acknowledge raised) := by
  have hok : WritesResultOnce s ((s.note (.acked s.event raised)).setResult .ok) :=
    (writesResultOnce_setResult _ .ok).of_note rfl
  rcases acknowledge_cases s raised with ⟨-, h⟩ | ⟨-, q, -, h⟩ | ⟨-, -, h⟩ <;> rw [h]
  · exact ((writesResultOnce_setResult _ .handlerRaised).of_trace_eq rfl).of_note rfl
  · exact hok.present q
  · exact hok.keep rfl rfl

theorem updateEntry_writesResultOnce {e : Byte} {f : Entry → Entry} (h : updateEntry e f s = .next t) :
    WritesResultOnce s t := by
  rcases updateEntry_cases h with ⟨-, rfl⟩ | ⟨-, -, rfl⟩ | ⟨-, -, -, -, rfl⟩
  · exact writesResultOnce_setResult s _
  · exact writesResultOnce_setResult s _
  · exact (writesResultOnce_setResult _ _).of_trace_eq rfl

theorem exec_writesResultOnce {i : Instr} (h : exec i s = .next t) : WritesResultOnce s t := by
  cases i with
  | tick =>
    rcases execTick_cases h with ⟨-, rfl⟩ | ⟨-, -, rfl⟩ | ⟨-, -, rfl⟩
    · exact writesResultOnce_setResult s _
    · exact (writesResultOnce_setResult _ _).of_trace_eq rfl
    · exact writesResultOnce_tick s
  | register pin =>
    rcases execRegister_cases h with
      ⟨-, rfl⟩ | ⟨-, -, rfl⟩ | ⟨-, -, -, rfl⟩ | ⟨-, -, -, -, rfl⟩ | ⟨-, -, -, -, -, rfl⟩
    · exact writesResultOnce_setResult s _
    · exact (writesResultOnce_setResult _ _).of_trace_eq rfl
    · exact writesResultOnce_setResult s _
    · exact writesResultOnce_setResult s _
    · exact (writesResultOnce_setResult _ _).of_trace_eq rfl
  | seth e g p tok => exact updateEntry_writesResultOnce (exec_seth s e g p tok ▸ h)
  | seta e g p tok => exact updateEntry_writesResultOnce (exec_seta s e g p tok ▸ h)
  | ack raised =>
    rcases execAck_cases h with ⟨-, rfl⟩ | ⟨-, -, rfl⟩ | ⟨-, -, rfl⟩
    · exact writesResultOnce_setResult s _
    · exact writesResultOnce_setResult s _
    · exact writesResultOnce_acknowledge s raised
  | reset =>
    rw [execReset_cases h]
    exact (writesResultOnce_setResult _ _).of_trace_eq rfl

/-- Settles O43, by the case lemma of each instruction: every case ends with one `setResult`, and what surrounds it adds
no other RESULT item. -/
theorem everyCommandWritesResultOnce : Obligations.EveryCommandWritesResultOnce :=
  fun _ _ _ h => exec_writesResultOnce h

/-! ## What no command changes: the parameters, the level of `rst`, the pending acts (R5, R34) -/

theorem dispatchEdges_sameOutside (s : State) : SameOutside s s.dispatchEdges := by
  rcases dispatchEdges_cases s with ⟨-, -, h⟩ | ⟨-, q, -, h⟩ | ⟨-, -, h⟩ <;> rw [h] <;> exact ⟨rfl, rfl, rfl⟩

theorem acknowledge_sameOutside (s : State) (raised : Bool) : SameOutside s (s.acknowledge raised) := by
  rcases acknowledge_cases s raised with ⟨-, h⟩ | ⟨-, q, -, h⟩ | ⟨-, -, h⟩ <;> rw [h] <;> exact ⟨rfl, rfl, rfl⟩

theorem updateEntry_sameOutside {e : Byte} {f : Entry → Entry} (h : updateEntry e f s = .next t) : SameOutside s t := by
  rcases updateEntry_cases h with ⟨-, rfl⟩ | ⟨-, -, rfl⟩ | ⟨-, -, -, -, rfl⟩ <;> exact ⟨rfl, rfl, rfl⟩

theorem exec_sameOutside {i : Instr} (h : exec i s = .next t) : SameOutside s t := by
  cases i with
  | tick =>
    rcases execTick_cases h with ⟨-, rfl⟩ | ⟨-, -, rfl⟩ | ⟨-, -, rfl⟩
    · exact ⟨rfl, rfl, rfl⟩
    · exact ⟨rfl, rfl, rfl⟩
    · obtain ⟨hparams, hrst, hbus⟩ := dispatchEdges_sameOutside s.sampleAndLatch
      exact ⟨hparams, hrst, hbus⟩
  | register pin =>
    rcases execRegister_cases h with
      ⟨-, rfl⟩ | ⟨-, -, rfl⟩ | ⟨-, -, -, rfl⟩ | ⟨-, -, -, -, rfl⟩ | ⟨-, -, -, -, -, rfl⟩ <;> exact ⟨rfl, rfl, rfl⟩
  | seth e g p tok => exact updateEntry_sameOutside (exec_seth s e g p tok ▸ h)
  | seta e g p tok => exact updateEntry_sameOutside (exec_seta s e g p tok ▸ h)
  | ack raised =>
    rcases execAck_cases h with ⟨-, rfl⟩ | ⟨-, -, rfl⟩ | ⟨-, -, rfl⟩
    · exact ⟨rfl, rfl, rfl⟩
    · exact ⟨rfl, rfl, rfl⟩
    · exact acknowledge_sameOutside s raised
  | reset =>
    rw [execReset_cases h]
    exact ⟨rfl, rfl, rfl⟩

/-- R204: no command word, legal or not, changes them either. -/
theorem executeWord_sameOutside {v : Word} (h : executeWord v s = .next t) : SameOutside s t := by
  rcases executeWord_cases h with ⟨i, -, h⟩ | ⟨rfl, -⟩ | ⟨rfl, -⟩
  · exact exec_sameOutside h
  · exact ⟨rfl, rfl, rfl⟩
  · exact ⟨rfl, rfl, rfl⟩

theorem step_params (h : step s = .next t) : t.params = s.params := by
  cases hr : s.rst with
  | true => exact (step_held hr h).2
  | false =>
    rcases step_released hr h with ⟨-, rfl⟩ | ⟨a, rest, -, hact⟩
    · rfl
    · rcases hact with ⟨x, rfl⟩ | rfl | ⟨v, rfl⟩ | ⟨-, rfl⟩ | ⟨-, rfl⟩ | ⟨v, -, hexec⟩
      case inr.inr.inr.inr.inr => exact (executeWord_sameOutside hexec).params
      all_goals rfl

/-! ID and CONFIG are computed from the constants alone (R34, R55). -/

theorem readWindow_id (s : State) : s.readWindow 0x000 = idWord := readWindow_of_some (r := .id) (by decide)

theorem readWindow_config (s : State) : s.readWindow 0x02C = configWord s.params :=
  readWindow_of_some (r := .config) (by decide)

/-- Settles O45: a step keeps the parameters, and ID and CONFIG show nothing else. -/
theorem stepKeepsConstants : Obligations.StepKeepsConstants := by
  intro s t h
  have hparams := step_params h
  exact ⟨hparams, by rw [readWindow_id, readWindow_id], by rw [readWindow_config, readWindow_config, hparams]⟩

/-! ## The input ports (R50, R230) -/

/-- R61: with an act pending, the step serves it in the state that `rst` holds. -/
theorem step_of_bus {a : HostAct} {rest : List HostAct} (hb : s.bus = a :: rest) :
    step s = hostAct a { s with bus := rest }.held := by
  simp [step, serveBus, hb]

/-- R230, log 4: while `rst` is asserted the step serves the act at the reset values, `rst` and what the outside world
holds being kept. -/
theorem step_of_bus_rst {a : HostAct} {rest : List HostAct} (hr : s.rst = true) (hb : s.bus = a :: rest) :
    step s = hostAct a { s with bus := rest, rst := true }.resetBlock := by
  rw [step_of_bus hb, held_of_rst (s := { s with bus := rest }) hr, ← hr]

theorem step_of_bus_not_rst {a : HostAct} {rest : List HostAct} (hr : s.rst = false) (hb : s.bus = a :: rest) :
    step s = hostAct a { s with bus := rest } := by
  rw [step_of_bus hb, held_of_not_rst (s := { s with bus := rest }) hr]

/-- R230: asserting `rst` resets the block, whether or not it was asserted before. -/
theorem held_driveRst_true (s : State) : s.held.driveRst true = { s with rst := true }.resetBlock := by
  cases hr : s.rst with
  | true => rw [held_of_rst hr]; rfl
  | false => rw [held_of_not_rst hr]; rfl

/-- Releasing a released `rst` does nothing. -/
theorem driveRst_false_of_not_rst (hr : s.rst = false) : s.driveRst false = s := by
  simp [State.driveRst, ← hr]

/-- R230: a command word written while `rst` is asserted is ignored. -/
theorem hostAct_commandWrite_of_rst (v : Word) (hr : s.rst = true) : hostAct (commandWrite v) s = .next s := by
  have hlegal : legalAccess cmdOffset 4 = true := by decide
  simp [commandWrite, hostAct, onlyOwner, busWrite, hlegal, hr]

/-- R58: a legal read answers the register's word. -/
theorem busRead_of_legal {off : Offset} {n : Nat} (hl : legalAccess off n = true) :
    busRead off n s = .next (s.note (.readData off (s.readWindow off))) := by
  simp [busRead, hl]

/-- The window shows nothing of what a reset keeps for the outside world (R51 to R55). -/
theorem readWindow_resetBlock (s : State) (off : Offset) :
    s.resetBlock.readWindow off = (State.resetWith s.params).readWindow off := by
  cases hreg : regAt off.toNat with
  | none => rw [readWindow_of_none hreg, readWindow_of_none hreg]
  | some r =>
    rw [readWindow_of_some hreg, readWindow_of_some hreg]
    cases r <;> rfl

/-- Settles O35: each act is served at the reset values while `rst` is asserted, and in the state itself otherwise. -/
theorem assertedRstHoldsResetValues : Obligations.AssertedRstHoldsResetValues := by
  intro s rest v off
  refine ⟨fun hb => ?assert, fun hr hb => ?write, fun hr ho hb => ?read,
    fun hb => ⟨fun hr => ?release, fun hr => ?stayReleased⟩, fun hb => ?sample⟩
  case assert =>
    rw [step_of_bus hb, hostAct, held_driveRst_true]
    rfl
  case write =>
    rw [step_of_bus_rst hr hb]
    exact hostAct_commandWrite_of_rst v rfl
  case read =>
    rw [step_of_bus_rst hr hb, hostAct, onlyOwner, busRead_of_legal (legalAccess_iff.2 ⟨rfl, ho⟩), readWindow_resetBlock]
    rfl
  case release =>
    rw [step_of_bus_rst hr hb]
    rfl
  case stayReleased =>
    rw [step_of_bus_not_rst hr hb, hostAct, driveRst_false_of_not_rst (s := { s with bus := rest }) hr]
  case sample =>
    cases hr : s.rst with
    | true => exact ⟨_, step_of_bus_rst hr hb, rfl, fun _ => rfl, nofun⟩
    | false => exact ⟨_, step_of_bus_not_rst hr hb, rfl, nofun, fun _ => by rw [← hr]⟩

/-! ## The invariants at reset (R37, R38) -/

@[simp] theorem entry_resetWith (p : Config.Params) (i : Nat) : (State.resetWith p).entry i = Entry.zero :=
  entry_of_replicate rfl i

theorem absent_canonical : OptToken.absent.Canonical := fun _ => rfl

theorem zero_tokens_canonical (g : Edge) : (Entry.zero.h g).Canonical ∧ (Entry.zero.a g).Canonical := by
  cases g <;> exact ⟨absent_canonical, absent_canonical⟩

/-- R37: with COUNT = 0, no walk and an empty table, each item holds of nothing or of zeros. -/
theorem blockInv_resetWith {p : Config.Params} (hp : p.Legal) : BlockInv (State.resetWith p) where
  params := hp
  countFits := Nat.zero_le _
  pinsInRange _ hi := absurd hi (Nat.not_lt_zero _)
  unusedZero i _ := entry_resetWith p i
  tokensCanonical i g := by
    rw [entry_resetWith]
    exact zero_tokens_canonical g
  edgesDisjoint := BitVec.and_zero
  idleEvent _ := rfl
  cursorRegistered hd := absurd hd Bool.false_ne_true
  cursorEdge hd := absurd hd Bool.false_ne_true

theorem faultInv_resetWith (p : Config.Params) : FaultInv (State.resetWith p) where
  code := ⟨fun _ => rfl, fun _ => rfl⟩
  walk hf := absurd hf Bool.false_ne_true
  result hf := absurd hf Bool.false_ne_true

theorem eventInv_resetWith (p : Config.Params) : EventInv (State.resetWith p) :=
  fun hd => absurd hd Bool.false_ne_true

theorem heldInv_resetWith (p : Config.Params) : HeldInv (State.resetWith p) :=
  fun hr => absurd hr Bool.false_ne_true

/-- Settles O48: the reset values meet each of the four invariants. -/
theorem invariantsHoldAtReset : Obligations.InvariantsHoldAtReset :=
  fun p hp => ⟨blockInv_resetWith hp, faultInv_resetWith p, eventInv_resetWith p, heldInv_resetWith p⟩

end Sys2Proof.Machine
end

section
/-! The obligations of 10_state.md: the reset values, what each command and each step can do to the block, the invariants
of R37, and what a walk, an entry and the fault state are changed by. -/

namespace Sys2Proof.Machine

variable {s t : State}

/-! ## The fields of an entry (R29, R144, R145) -/

@[simp] theorem setH_pin (x : Entry) (g : Edge) (o : OptToken) : (x.setH g o).pin = x.pin := by cases g <;> rfl

@[simp] theorem setA_pin (x : Entry) (g : Edge) (o : OptToken) : (x.setA g o).pin = x.pin := by cases g <;> rfl

@[simp] theorem setH_a (x : Entry) (g : Edge) (o : OptToken) : (x.setH g o).a = x.a := by
  funext g'
  cases g <;> cases g' <;> rfl

@[simp] theorem setA_h (x : Entry) (g : Edge) (o : OptToken) : (x.setA g o).h = x.h := by
  funext g'
  cases g <;> cases g' <;> rfl

@[simp] theorem setH_h (x : Entry) (g g' : Edge) (o : OptToken) : (x.setH g o).h g' = if g' = g then o else x.h g' := by
  cases g <;> cases g' <;> rfl

@[simp] theorem setA_a (x : Entry) (g g' : Edge) (o : OptToken) : (x.setA g o).a g' = if g' = g then o else x.a g' := by
  cases g <;> cases g' <;> rfl

/-- R37 item 2 for an entry. -/
def Entry.Canonical (x : Entry) : Prop := ∀ g, (x.h g).Canonical ∧ (x.a g).Canonical

/-- R78: an operand with PRESENT = 0 gives the token 0. -/
theorem ofOperand_canonical (p : Bool) (tok : Token) : (OptToken.ofOperand p tok).Canonical := by
  rintro rfl
  rfl

theorem new_canonical (pin : Byte) : (Entry.new pin).Canonical := by
  intro g
  cases g <;> exact ⟨absent_canonical, absent_canonical⟩

theorem setH_canonical {x : Entry} (hx : x.Canonical) (g : Edge) (p : Bool) (tok : Token) :
    (x.setH g (.ofOperand p tok)).Canonical := by
  intro g'
  obtain ⟨hh, ha⟩ := hx g'
  rw [setH_h, setH_a]
  split
  · exact ⟨ofOperand_canonical p tok, ha⟩
  · exact ⟨hh, ha⟩

theorem setA_canonical {x : Entry} (hx : x.Canonical) (g : Edge) (p : Bool) (tok : Token) :
    (x.setA g (.ofOperand p tok)).Canonical := by
  intro g'
  obtain ⟨hh, ha⟩ := hx g'
  rw [setA_a, setA_h]
  split
  · exact ⟨hh, ofOperand_canonical p tok⟩
  · exact ⟨hh, ha⟩

/-- What a new entry `i` has in common with the old one, every entry of the table has in common. -/
theorem field_setEntry {α : Type} (f : Entry → α) {i : Nat} {x : Entry} (hi : i < 32) (hf : f x = f (s.entry i))
    (j : Nat) : f ((s.setEntry i x).entry j) = f (s.entry j) := by
  rw [entry_setEntry hi]
  split
  next hj => rw [hf, hj]
  next => rfl

/-- Replacing an entry by one of the same pin changes no pin of the table (R30). -/
theorem pin_setEntry {i : Nat} {x : Entry} (hi : i < 32) (hpin : x.pin = (s.entry i).pin) (j : Nat) :
    ((s.setEntry i x).entry j).pin = (s.entry j).pin := field_setEntry Entry.pin hi hpin j

/-! ## The words the walk latches (R53, R120) -/

/-- R121: no lane rises and falls at once. -/
theorem risingEdges_and_fallingEdges (cur prev : Word) : risingEdges cur prev &&& fallingEdges cur prev = 0 := by
  ext i hi
  simp [risingEdges, fallingEdges]
  tauto

theorem cursor_entry_toNat {p : Pos} (h : p.entry < 32) : p.cursor.entry.toNat = p.entry :=
  congrArg Pos.entry (cursor_pos h)

/-- R53: VALID of the event word. -/
theorem eventWord_valid (p : Pos) (x : Entry) : (eventWord p x).getLsbD 31 = true := by
  simp only [eventWord, BitVec.getLsbD_append]
  simp

/-- R53: ENTRY of the event word. -/
theorem eventWord_entry (p : Pos) (x : Entry) : (eventWord p x).extractLsb' 26 5 = BitVec.ofNat 5 p.entry := by
  ext i hi
  simp only [eventWord, BitVec.getElem_extractLsb', BitVec.getLsbD_append]
  interval_cases i <;> simp

/-- R53: EDGE of the event word. -/
theorem eventWord_edge (p : Pos) (x : Entry) : (eventWord p x).getLsbD 25 = bitOfEdge p.phase := by
  simp only [eventWord, BitVec.getLsbD_append]
  simp

/-- R53: PIN of the event word. -/
theorem eventWord_pin (p : Pos) (x : Entry) : (eventWord p x).extractLsb' 0 8 = x.pin := by
  ext i hi
  simp only [eventWord, BitVec.getElem_extractLsb', BitVec.getLsbD_append]
  interval_cases i <;> simp

/-! ## What a command can do -/

/-- What a command leaves when it answers a next state, one constructor per effect. -/
inductive CommandEffect (s : State) : Instr → State → Prop where
  /-- R200 item 1, R206: RESULT alone is written; while FAULT = 1 it is FAULTED. -/
  | rejected (i : Instr) (code : ResultCode) (hcode : s.fault = true → code = .faulted) :
      CommandEffect s i (s.setResult code)
  /-- R205: the fault entry, while a walk waits. -/
  | faults (i : Instr) (code : FaultCode) (hfault : s.fault = false) (hwait : s.dispatching = true)
      (hcode : code ≠ .none) : CommandEffect s i ({ s with fault := true, faultCode := code }.setResult .faulted)
  /-- R170. -/
  | ticks (hfault : s.fault = false) (hidle : s.dispatching = false) :
      CommandEffect s .tick s.sampleAndLatch.dispatchEdges
  /-- R141. -/
  | registers (pin : Byte) (hfault : s.fault = false) (hidle : s.dispatching = false) (hpin : pin.toNat < W)
      (hroom : s.count.toNat < s.params.maxButtons) (hslot : s.count.toNat < 32) :
      CommandEffect s (.register pin) (s.setEntry s.count.toNat (Entry.new pin)).countAndPrime
  /-- R144. -/
  | setsHandler (e : Byte) (g : Edge) (p : Bool) (tok : Token) (hfault : s.fault = false)
      (hentry : e.toNat < s.count.toNat) (hslot : e.toNat < 32) :
      CommandEffect s (.seth e g p tok)
        ((s.setEntry e.toNat ((s.entry e.toNat).setH g (.ofOperand p tok))).setResult .ok)
  /-- R145. -/
  | setsArgument (e : Byte) (g : Edge) (p : Bool) (tok : Token) (hfault : s.fault = false)
      (hentry : e.toNat < s.count.toNat) (hslot : e.toNat < 32) :
      CommandEffect s (.seta e g p tok)
        ((s.setEntry e.toNat ((s.entry e.toNat).setA g (.ofOperand p tok))).setResult .ok)
  /-- R177. -/
  | acknowledges (raised : Bool) (hfault : s.fault = false) (hwait : s.dispatching = true) :
      CommandEffect s (.ack raised) (s.acknowledge raised)
  /-- R146. -/
  | resets : CommandEffect s .reset (s.resetBlock.setResult .ok)

theorem CommandEffect.faulted (i : Instr) : CommandEffect s i (s.setResult .faulted) := .rejected i .faulted fun _ => rfl

theorem CommandEffect.rejected_of_not_fault (i : Instr) (code : ResultCode) (hf : s.fault = false) :
    CommandEffect s i (s.setResult code) := .rejected i code fun h => absurd h (ne_true_of_eq_false hf)

/-- Every next state of a command is one of the effects. -/
theorem exec_effect {i : Instr} (h : exec i s = .next t) : CommandEffect s i t := by
  cases i with
  | tick =>
    rcases execTick_cases h with ⟨-, rfl⟩ | ⟨hf, hd, rfl⟩ | ⟨hf, hd, rfl⟩
    · exact .faulted _
    · exact .faults _ _ hf hd nofun
    · exact .ticks hf hd
  | register pin =>
    rcases execRegister_cases h with
      ⟨-, rfl⟩ | ⟨hf, hd, rfl⟩ | ⟨hf, -, -, rfl⟩ | ⟨hf, -, -, -, rfl⟩ | ⟨hf, hd, hpin, hroom, hslot, rfl⟩
    · exact .faulted _
    · exact .faults _ _ hf hd nofun
    · exact .rejected_of_not_fault _ _ hf
    · exact .rejected_of_not_fault _ _ hf
    · exact .registers pin hf hd hpin hroom hslot
  | seth e g p tok =>
    rcases execSeth_cases h with ⟨-, rfl⟩ | ⟨hf, -, rfl⟩ | ⟨hf, he, -, hslot, rfl⟩
    · exact .faulted _
    · exact .rejected_of_not_fault _ _ hf
    · exact .setsHandler e g p tok hf he hslot
  | seta e g p tok =>
    rcases execSeta_cases h with ⟨-, rfl⟩ | ⟨hf, -, rfl⟩ | ⟨hf, he, -, hslot, rfl⟩
    · exact .faulted _
    · exact .rejected_of_not_fault _ _ hf
    · exact .setsArgument e g p tok hf he hslot
  | ack raised =>
    rcases execAck_cases h with ⟨-, rfl⟩ | ⟨hf, -, rfl⟩ | ⟨hf, hd, rfl⟩
    · exact .faulted _
    · exact .rejected_of_not_fault _ _ hf
    · exact .acknowledges raised hf hd
  | reset =>
    rw [execReset_cases h]
    exact .resets

/-- R206: while FAULT = 1 every command but RESET is ignored with FAULTED. -/
theorem CommandEffect.of_fault {i : Instr} (hf : s.fault = true) (hi : i ≠ .reset) (h : CommandEffect s i t) :
    t = s.setResult .faulted := by
  cases h with
  | rejected _ code hcode => rw [hcode hf]
  | resets => exact absurd rfl hi
  | faults _ _ hfault | ticks hfault | registers _ hfault | setsHandler _ _ _ _ hfault | setsArgument _ _ _ _ hfault
  | acknowledges _ hfault => exact absurd hf (ne_true_of_eq_false hfault)

/-! ## What the walk's operations leave unchanged (R172, R175, R178, R179, R187) -/

/-- Everything of the block but LAST, RESULT and the dispatch state is the same. -/
structure WalkFrame (s t : State) : Prop extends SameTable s t, SameFault s t where
  raw : t.raw = s.raw
  c0 : t.c0 = s.c0
  c1 : t.c1 = s.c1
  delta : t.delta = s.delta
  rising : t.rising = s.rising
  falling : t.falling = s.falling
  params : t.params = s.params

theorem dispatchEdges_frame (s : State) : WalkFrame s s.dispatchEdges := by
  rcases dispatchEdges_cases s with ⟨-, -, h⟩ | ⟨-, q, -, h⟩ | ⟨-, -, h⟩ <;> rw [h] <;>
    exact ⟨⟨rfl, rfl⟩, ⟨rfl, rfl⟩, rfl, rfl, rfl, rfl, rfl, rfl, rfl⟩

theorem acknowledge_frame (s : State) (raised : Bool) : WalkFrame s (s.acknowledge raised) := by
  rcases acknowledge_cases s raised with ⟨-, h⟩ | ⟨-, q, -, h⟩ | ⟨-, -, h⟩ <;> rw [h] <;>
    exact ⟨⟨rfl, rfl⟩, ⟨rfl, rfl⟩, rfl, rfl, rfl, rfl, rfl, rfl, rfl⟩

/-- R37 item 6: while the walk goes on, LAST waits. -/
theorem acknowledge_last (raised : Bool) (hd : (s.acknowledge raised).dispatching = true) :
    (s.acknowledge raised).last = s.last := by
  rcases acknowledge_cases s raised with ⟨-, h⟩ | ⟨-, q, -, h⟩ | ⟨-, -, h⟩ <;> rw [h] at hd ⊢
  · exact absurd hd Bool.false_ne_true
  · rfl
  · exact absurd hd Bool.false_ne_true

/-! ## What a step can do -/

/-- Every element of R20 and the parameters are the same; what belongs to the outside world may differ. -/
structure SameBlock (s t : State) : Prop extends SameDebounce s t, SameTable s t, SameWalk s t, SameFault s t where
  result : t.result = s.result
  params : t.params = s.params

theorem SameBlock.outside (s : State) (r : Bool) (n : Option Word) (d : Nat) (b : List HostAct) (tr : List TraceItem) :
    SameBlock s { s with rst := r, sampleNext := n, draws := d, bus := b, trace := tr } :=
  ⟨⟨rfl, rfl, rfl, rfl, rfl, rfl, rfl⟩, ⟨rfl, rfl⟩, ⟨rfl, rfl, rfl⟩, ⟨rfl, rfl⟩, rfl, rfl⟩

/-- A reset's values depend on the parameters alone (R38). -/
theorem SameBlock.resetBlock (hparams : t.params = s.params) : SameBlock s.resetBlock t.resetBlock :=
  ⟨⟨rfl, rfl, rfl, rfl, rfl, rfl, rfl⟩, ⟨rfl, rfl⟩, ⟨rfl, rfl, rfl⟩, ⟨rfl, rfl⟩, rfl, hparams⟩

/-- Everything a step can do to the block: `rst` resets it, it stays, or it takes a command word. -/
theorem step_block_cases (h : step s = .next t) :
    ((s.rst = true ∨ ∃ rest, s.bus = .setRst true :: rest) ∧ SameBlock s.resetBlock t) ∨
    SameBlock s t ∨
    ∃ v rest, s.bus = commandWrite v :: rest ∧ executeWord v { s with bus := rest } = .next t := by
  rcases Bool.eq_false_or_eq_true s.rst with hr | hr
  · obtain ⟨hreset, hparams⟩ := step_held hr h
    have hsame : SameBlock s.resetBlock t.resetBlock := .resetBlock hparams
    rw [← hreset] at hsame
    exact .inl ⟨.inl hr, hsame⟩
  · rcases step_released hr h with ⟨-, rfl⟩ | ⟨a, rest, hb, hact⟩
    · exact .inr (.inl (.outside t _ _ _ _ _))
    · rcases hact with ⟨x, rfl⟩ | rfl | ⟨v, rfl⟩ | ⟨rfl, rfl⟩ | ⟨-, rfl⟩ | ⟨v, rfl, hword⟩
      · exact .inr (.inl (.outside s _ _ _ _ _))
      · exact .inr (.inl (.outside s _ _ _ _ _))
      · exact .inr (.inl (.outside s _ _ _ _ _))
      · exact .inl ⟨.inr ⟨rest, hb⟩, .resetBlock rfl⟩
      · exact .inr (.inl (.outside s _ _ _ _ _))
      · exact .inr (.inr ⟨v, rest, hb, hword⟩)

/-- Everything a command word can do (R204): it runs an instruction, or it is illegal and RESULT alone is written. -/
theorem executeWord_effect {v : Word} (h : executeWord v s = .next t) :
    (∃ i, decode v = .ok i ∧ CommandEffect s i t) ∨
      ∃ code, (s.fault = true → code = .faulted) ∧ t = s.setResult code := by
  rcases executeWord_cases h with ⟨i, hi, hexec⟩ | ⟨rfl, -⟩ | ⟨rfl, hf⟩
  · exact .inl ⟨i, hi, exec_effect hexec⟩
  · exact .inr ⟨.faulted, fun _ => rfl, rfl⟩
  · exact .inr ⟨.illegal, fun hf' => absurd hf' (ne_true_of_eq_false hf), rfl⟩

/-- An invariant of the block: kept by a reset, by a written RESULT and by every command, it is kept by every step. -/
theorem step_keeps {P : State → Prop} (same : ∀ {s t}, SameBlock s t → P s → P t)
    (reset : ∀ {s}, P s → P s.resetBlock)
    (reject : ∀ {s code}, (s.fault = true → code = .faulted) → P s → P (s.setResult code))
    (command : ∀ {s t i}, CommandEffect s i t → P s → P t) (hs : P s) (h : step s = .next t) : P t := by
  rcases step_block_cases h with ⟨-, hsame⟩ | hsame | ⟨v, rest, -, hword⟩
  · exact same hsame (reset hs)
  · exact same hsame hs
  · have hs' : P { s with bus := rest } := same (.outside s _ _ _ _ _) hs
    rcases executeWord_effect hword with ⟨i, -, heffect⟩ | ⟨code, hcode, rfl⟩
    · exact command heffect hs'
    · exact reject hcode hs'

/-! ## Items 1 to 5 of R37 -/

/-- With the table kept, the items about the masks and the walk are what is left to show. -/
theorem BlockInv.of_sameTable (inv : BlockInv s) (table : SameTable s t) (params : t.params = s.params)
    (disjoint : t.rising &&& t.falling = 0) (idle : t.dispatching = false → t.event = 0)
    (registered : t.dispatching = true → t.cursor.entry.toNat < s.count.toNat)
    (edge : t.dispatching = true →
      laneBit (t.edgeMask t.cursor.phase) (s.entry t.cursor.entry.toNat).pin = true) : BlockInv t where
  params := params ▸ inv.params
  countFits := table.count ▸ params ▸ inv.countFits
  pinsInRange i hi := by
    rw [entry_congr table.table]
    exact inv.pinsInRange i (table.count ▸ hi)
  unusedZero i hi := by
    rw [entry_congr table.table]
    exact inv.unusedZero i (table.count ▸ hi)
  tokensCanonical i g := by
    rw [entry_congr table.table]
    exact inv.tokensCanonical i g
  edgesDisjoint := disjoint
  idleEvent := idle
  cursorRegistered := table.count ▸ registered
  cursorEdge hd := by
    rw [entry_congr table.table]
    exact edge hd

theorem edgeMask_congr (hr : t.rising = s.rising) (hf : t.falling = s.falling) (g : Edge) :
    t.edgeMask g = s.edgeMask g := by
  cases g <;> assumption

theorem BlockInv.of_sameWalk (inv : BlockInv s) (table : SameTable s t) (walk : SameWalk s t)
    (params : t.params = s.params) (rising : t.rising = s.rising) (falling : t.falling = s.falling) : BlockInv t := by
  obtain ⟨hd, hc, he⟩ := walk
  refine inv.of_sameTable table params ?_ ?_ ?_ ?_
  · rw [rising, falling]
    exact inv.edgesDisjoint
  · rw [hd, he]
    exact inv.idleEvent
  · rw [hd, hc]
    exact inv.cursorRegistered
  · rw [hd, hc, edgeMask_congr rising falling]
    exact inv.cursorEdge

theorem BlockInv.of_sameBlock (same : SameBlock s t) (inv : BlockInv s) : BlockInv t :=
  inv.of_sameWalk same.toSameTable same.toSameWalk same.params same.rising same.falling

theorem BlockInv.setResult (inv : BlockInv s) (code : ResultCode) : BlockInv (s.setResult code) :=
  inv.of_sameWalk ⟨rfl, rfl⟩ ⟨rfl, rfl, rfl⟩ rfl rfl rfl

theorem BlockInv.note (inv : BlockInv s) (x : TraceItem) : BlockInv (s.note x) :=
  inv.of_sameWalk ⟨rfl, rfl⟩ ⟨rfl, rfl, rfl⟩ rfl rfl rfl

theorem BlockInv.resetBlock (inv : BlockInv s) : BlockInv s.resetBlock :=
  (blockInv_resetWith inv.params).of_sameWalk ⟨rfl, rfl⟩ ⟨rfl, rfl, rfl⟩ rfl rfl rfl

/-- Once the walk has ended, items 4 and 5 ask only for EVENT = 0. -/
theorem BlockInv.of_idle (inv : BlockInv s) (frame : WalkFrame s t) (hd : t.dispatching = false) (he : t.event = 0) :
    BlockInv t := by
  have hnot : ¬ t.dispatching = true := ne_true_of_eq_false hd
  refine inv.of_sameTable frame.toSameTable frame.params ?_ (fun _ => he) (absurd · hnot) (absurd · hnot)
  rw [frame.rising, frame.falling]
  exact inv.edgesDisjoint

/-- R5, R28: a registered entry has an index below 32. -/
theorem BlockInv.lt_32 (inv : BlockInv s) {i : Nat} (hi : i < s.count.toNat) : i < 32 := by
  have hcount := inv.countFits
  have hmax := inv.params.2
  omega

/-- R173, R175: a position that matches is one that CURSOR may stand at. -/
theorem BlockInv.present (inv : BlockInv s) {q : Pos} (hq : s.MatchesAt q) : BlockInv (s.present q) := by
  obtain ⟨hentry, hmatch⟩ := hq
  obtain ⟨hlane, -⟩ := Bool.and_eq_true_iff.1 hmatch
  have hcursor : q.cursor.entry.toNat = q.entry := cursor_entry_toNat (inv.lt_32 hentry)
  refine inv.of_sameTable ⟨rfl, rfl⟩ rfl inv.edgesDisjoint nofun (fun _ => ?_) (fun _ => ?_)
  · rw [State.present_cursor, hcursor]
    exact hentry
  · rw [State.present_cursor, hcursor]
    exact hlane

theorem BlockInv.dispatchEdges (inv : BlockInv s) (hd : s.dispatching = false) : BlockInv s.dispatchEdges := by
  have frame := dispatchEdges_frame s
  rcases dispatchEdges_cases s with ⟨-, -, h⟩ | ⟨-, q, hq, h⟩ | ⟨-, -, h⟩ <;> rw [h] at frame ⊢
  · exact inv.of_idle frame hd (inv.idleEvent hd)
  · exact inv.present hq.1
  · exact inv.of_idle frame rfl rfl

theorem BlockInv.acknowledge (inv : BlockInv s) (raised : Bool) : BlockInv (s.acknowledge raised) := by
  have frame := acknowledge_frame s raised
  rcases acknowledge_cases s raised with ⟨-, h⟩ | ⟨-, q, hq, h⟩ | ⟨-, -, h⟩ <;> rw [h] at frame ⊢
  · exact inv.of_idle frame rfl rfl
  · exact ((inv.note _).setResult .ok).present ((matchesAt_congr rfl rfl rfl rfl q).2 hq.1)
  · exact inv.of_idle frame rfl rfl

/-- R121, R122: the masks that TICK latches are disjoint. -/
theorem BlockInv.sampleAndLatch (inv : BlockInv s) (hd : s.dispatching = false) : BlockInv s.sampleAndLatch := by
  have hnot : ¬ s.dispatching = true := ne_true_of_eq_false hd
  exact inv.of_sameTable ⟨rfl, rfl⟩ rfl (risingEdges_and_fallingEdges _ _) inv.idleEvent (absurd · hnot) (absurd · hnot)

/-- R30: a registered entry may be replaced by one of the same pin with canonical tokens. -/
theorem BlockInv.setEntry (inv : BlockInv s) {i : Nat} {x : Entry} (hi : i < s.count.toNat)
    (hpin : x.pin = (s.entry i).pin) (hx : x.Canonical) : BlockInv (s.setEntry i x) where
  params := inv.params
  countFits := inv.countFits
  pinsInRange j hj := by
    rw [pin_setEntry (inv.lt_32 hi) hpin]
    exact inv.pinsInRange j hj
  unusedZero j (hj : s.count.toNat ≤ j) := by
    rw [entry_setEntry (inv.lt_32 hi), if_neg (by omega)]
    exact inv.unusedZero j hj
  tokensCanonical j g := by
    rw [entry_setEntry (inv.lt_32 hi)]
    split
    · exact hx g
    · exact inv.tokensCanonical j g
  edgesDisjoint := inv.edgesDisjoint
  idleEvent := inv.idleEvent
  cursorRegistered := inv.cursorRegistered
  cursorEdge hd := by
    rw [pin_setEntry (inv.lt_32 hi) hpin]
    exact inv.cursorEdge hd

/-- COUNT does not wrap while there is room in the table (R28). -/
theorem count_succ_toNat (h : s.count.toNat < 32) : (s.count + 1).toNat = s.count.toNat + 1 := by
  bv_omega

/-- R141: REGISTER appends one entry, with a pin in range and no tokens. -/
theorem BlockInv.register (inv : BlockInv s) {pin : Byte} (hidle : s.dispatching = false) (hpin : pin.toNat < W)
    (hroom : s.count.toNat < s.params.maxButtons) (hslot : s.count.toNat < 32) :
    BlockInv (s.setEntry s.count.toNat (Entry.new pin)).countAndPrime where
  params := inv.params
  countFits := by
    rw [State.countAndPrime_count, State.setEntry_count, count_succ_toNat hslot]
    exact hroom
  pinsInRange i hi := by
    rw [State.countAndPrime_count, State.setEntry_count, count_succ_toNat hslot] at hi
    rw [entry_countAndPrime, entry_setEntry hslot]
    split
    · exact hpin
    · exact inv.pinsInRange i (by omega)
  unusedZero i hi := by
    rw [State.countAndPrime_count, State.setEntry_count, count_succ_toNat hslot] at hi
    rw [entry_countAndPrime, entry_setEntry hslot, if_neg (by omega)]
    exact inv.unusedZero i (by omega)
  tokensCanonical i g := by
    rw [entry_countAndPrime, entry_setEntry hslot]
    split
    · exact new_canonical pin g
    · exact inv.tokensCanonical i g
  edgesDisjoint := inv.edgesDisjoint
  idleEvent := inv.idleEvent
  cursorRegistered hd := absurd hd (ne_true_of_eq_false hidle)
  cursorEdge hd := absurd hd (ne_true_of_eq_false hidle)

theorem BlockInv.command {i : Instr} (h : CommandEffect s i t) (inv : BlockInv s) : BlockInv t := by
  cases h with
  | rejected _ code _ => exact inv.setResult code
  | faults _ code _ _ _ => exact inv.of_sameWalk ⟨rfl, rfl⟩ ⟨rfl, rfl, rfl⟩ rfl rfl rfl
  | ticks _ hidle => exact (inv.sampleAndLatch hidle).dispatchEdges hidle
  | registers pin _ hidle hpin hroom hslot => exact inv.register hidle hpin hroom hslot
  | setsHandler e g p tok _ he _ =>
    exact (inv.setEntry he (setH_pin _ g _) (setH_canonical (inv.tokensCanonical _) g p tok)).setResult .ok
  | setsArgument e g p tok _ he _ =>
    exact (inv.setEntry he (setA_pin _ g _) (setA_canonical (inv.tokensCanonical _) g p tok)).setResult .ok
  | acknowledges raised _ _ => exact inv.acknowledge raised
  | resets => exact inv.resetBlock.setResult .ok

/-- Settles O49, by the effect of each command on the table, the masks and the walk. -/
theorem stepKeepsBlockInv : Obligations.StepKeepsBlockInv := fun _ _ inv h =>
  step_keeps BlockInv.of_sameBlock BlockInv.resetBlock (fun _ inv => inv.setResult _) BlockInv.command inv h

/-! ## The fault invariant (R33, R203, R205, R206) -/

theorem FaultInv.of_sameBlock (same : SameBlock s t) (inv : FaultInv s) : FaultInv t where
  code := by
    rw [same.fault, same.faultCode]
    exact inv.code
  walk := by
    rw [same.fault, same.dispatching]
    exact inv.walk
  result := by
    rw [same.fault, same.result]
    exact inv.result

theorem FaultInv.setResult {code : ResultCode} (hcode : s.fault = true → code = .faulted) (inv : FaultInv s) :
    FaultInv (s.setResult code) where
  code := inv.code
  walk := inv.walk
  result := hcode

/-- Without a fault the invariant is that FAULT_CODE is NONE. -/
theorem faultInv_of_not_fault (hfault : t.fault = false) (hcode : t.faultCode = .none) : FaultInv t where
  code := ⟨fun _ => hcode, fun _ => hfault⟩
  walk hf := absurd hf (ne_true_of_eq_false hfault)
  result hf := absurd hf (ne_true_of_eq_false hfault)

/-- A command that runs without touching the fault state keeps it clear. -/
theorem FaultInv.of_sameFault (inv : FaultInv s) (hfault : s.fault = false) (same : SameFault s t) : FaultInv t :=
  faultInv_of_not_fault (same.fault.trans hfault) (same.faultCode.trans (inv.code.1 hfault))

theorem FaultInv.command {i : Instr} (h : CommandEffect s i t) (inv : FaultInv s) : FaultInv t := by
  cases h with
  | rejected _ code hcode => exact inv.setResult hcode
  | faults _ code _ hwait hcode =>
    exact { code := ⟨nofun, fun h => absurd h hcode⟩, walk := fun _ => hwait, result := fun _ => rfl }
  | ticks hfault _ =>
    obtain ⟨hf, hc⟩ := (dispatchEdges_frame s.sampleAndLatch).toSameFault
    exact inv.of_sameFault hfault ⟨hf, hc⟩
  | registers pin hfault => exact inv.of_sameFault hfault ⟨rfl, rfl⟩
  | setsHandler e g p tok hfault => exact inv.of_sameFault hfault ⟨rfl, rfl⟩
  | setsArgument e g p tok hfault => exact inv.of_sameFault hfault ⟨rfl, rfl⟩
  | acknowledges raised hfault => exact inv.of_sameFault hfault (acknowledge_frame s raised).toSameFault
  | resets => exact faultInv_of_not_fault rfl rfl

/-- Settles O50: only the fault entry sets FAULT, while a walk waits, and while FAULT = 1 every command but RESET is
answered FAULTED with the walk left waiting. -/
theorem stepKeepsFaultInv : Obligations.StepKeepsFaultInv := fun _ _ inv h =>
  step_keeps FaultInv.of_sameBlock (fun _ => faultInv_of_not_fault rfl rfl) FaultInv.setResult FaultInv.command inv h

/-! ## The event invariant (R53, R175, R30) -/

theorem EventInv.of_sameWalk (inv : EventInv s) (walk : SameWalk s t)
    (pins : ∀ i, (t.entry i).pin = (s.entry i).pin) : EventInv t := by
  obtain ⟨hd, hc, he⟩ := walk
  unfold EventInv
  rw [hd, hc, he, pins]
  exact inv

theorem eventInv_of_idle (hd : t.dispatching = false) : EventInv t :=
  fun hd' => absurd hd' (ne_true_of_eq_false hd)

/-- R175: the upcall latches the event of the position that CURSOR takes. -/
theorem eventInv_present {q : Pos} (hq : q.entry < 32) : EventInv (s.present q) := by
  intro _
  rw [State.present_event, State.present_cursor, entry_present, cursor_entry_toNat hq]
  exact ⟨eventWord_valid q _, eventWord_entry q _, eventWord_edge q _, eventWord_pin q _⟩

theorem BlockInv.eventInv_dispatchEdges (inv : BlockInv s) (hd : s.dispatching = false) :
    EventInv s.dispatchEdges := by
  rcases dispatchEdges_cases s with ⟨-, -, h⟩ | ⟨-, q, hq, h⟩ | ⟨-, -, h⟩ <;> rw [h]
  · exact eventInv_of_idle hd
  · exact eventInv_present (inv.lt_32 hq.1.1)
  · exact eventInv_of_idle rfl

theorem BlockInv.eventInv_acknowledge (inv : BlockInv s) (raised : Bool) : EventInv (s.acknowledge raised) := by
  rcases acknowledge_cases s raised with ⟨-, h⟩ | ⟨-, q, hq, h⟩ | ⟨-, -, h⟩ <;> rw [h]
  · exact eventInv_of_idle rfl
  · exact eventInv_present (inv.lt_32 hq.1.1)
  · exact eventInv_of_idle rfl

theorem EventInv.command {i : Instr} (h : CommandEffect s i t) (block : BlockInv s) (inv : EventInv s) :
    EventInv t := by
  cases h with
  | rejected | faults => exact inv.of_sameWalk ⟨rfl, rfl, rfl⟩ fun _ => rfl
  | ticks _ hidle => exact (block.sampleAndLatch hidle).eventInv_dispatchEdges hidle
  | registers pin _ hidle => exact eventInv_of_idle hidle
  | setsHandler e g p tok _ _ hslot => exact inv.of_sameWalk ⟨rfl, rfl, rfl⟩ (pin_setEntry hslot (setH_pin _ g _))
  | setsArgument e g p tok _ _ hslot => exact inv.of_sameWalk ⟨rfl, rfl, rfl⟩ (pin_setEntry hslot (setA_pin _ g _))
  | acknowledges raised _ _ => exact block.eventInv_acknowledge raised
  | resets => exact eventInv_of_idle rfl

/-- Settles O51, together with the invariant of R37, which bounds the entry index of a match by the 5 bits of EVENT and
CURSOR. -/
theorem stepKeepsEventInv : Obligations.StepKeepsEventInv := fun _ _ block inv h =>
  (step_keeps (P := fun s => BlockInv s ∧ EventInv s)
    (fun same ⟨block, inv⟩ => ⟨block.of_sameBlock same, inv.of_sameWalk same.toSameWalk fun _ => by
      rw [entry_congr same.table]⟩)
    (fun ⟨block, _⟩ => ⟨block.resetBlock, eventInv_of_idle rfl⟩)
    (fun _ ⟨block, inv⟩ => ⟨block.setResult _, inv.of_sameWalk ⟨rfl, rfl, rfl⟩ fun _ => rfl⟩)
    (fun effect ⟨block, inv⟩ => ⟨block.command effect, inv.command effect block⟩) ⟨block, inv⟩ h).2

/-! ## What changes what (R30, R187, R206) -/

/-- Settles O22: of the commands that do not end in a rejection, a waiting walk allows only SETH, SETA and ACK. -/
theorem walkFreezesDebounceState : Obligations.WalkFreezesDebounceState := by
  intro i s t hwait hi h
  cases exec_effect h with
  | rejected | faults | setsHandler | setsArgument => exact ⟨rfl, rfl, rfl, rfl, rfl, rfl, rfl, fun _ => rfl⟩
  | ticks _ hidle | registers _ _ hidle => exact absurd hwait (ne_true_of_eq_false hidle)
  | acknowledges raised =>
    obtain ⟨⟨hcount, -⟩, -, hraw, hc0, hc1, hdelta, hrising, hfalling, -⟩ := acknowledge_frame s raised
    exact ⟨hraw, hc0, hc1, hdelta, hrising, hfalling, hcount, acknowledge_last raised⟩
  | resets => exact absurd rfl hi

/-- What R30 lets command `i` change of a registered entry `x`, which becomes `y`. -/
def EntryChange (i : Instr) (x y : Entry) : Prop :=
  y.pin = x.pin ∧ ((∀ e g p k, i ≠ .seth e g p k) → y.h = x.h) ∧ ((∀ e g p k, i ≠ .seta e g p k) → y.a = x.a)

theorem EntryChange.of_eq {i : Instr} {x y : Entry} (h : y = x) : EntryChange i x y :=
  h ▸ ⟨rfl, fun _ => rfl, fun _ => rfl⟩

theorem CommandEffect.entryChange {i : Instr} (h : CommandEffect s i t) (hi : i ≠ .reset) {j : Nat}
    (hj : j < s.count.toNat) : EntryChange i (s.entry j) (t.entry j) := by
  cases h with
  | rejected | faults => exact .of_eq rfl
  | ticks =>
    have frame := dispatchEdges_frame s.sampleAndLatch
    exact .of_eq (entry_congr (s := s) frame.table j)
  | registers pin _ _ _ _ hslot =>
    refine .of_eq ?_
    rw [entry_countAndPrime, entry_setEntry hslot, if_neg (by omega)]
  | setsHandler e g p tok _ _ hslot =>
    exact ⟨pin_setEntry hslot (setH_pin _ g _) j, fun hno => absurd rfl (hno e g p tok),
      fun _ => field_setEntry Entry.a hslot (setH_a _ g _) j⟩
  | setsArgument e g p tok _ _ hslot =>
    exact ⟨pin_setEntry hslot (setA_pin _ g _) j, fun _ => field_setEntry Entry.h hslot (setA_h _ g _) j,
      fun hno => absurd rfl (hno e g p tok)⟩
  | acknowledges raised => exact .of_eq (entry_congr (acknowledge_frame s raised).table j)
  | resets => exact absurd rfl hi

theorem CommandEffect.count {i : Instr} (h : CommandEffect s i t) (hi : i ≠ .reset) :
    t.count = s.count ∨ (∃ pin, i = .register pin) ∧ t.count.toNat = s.count.toNat + 1 := by
  cases h with
  | rejected | faults | setsHandler | setsArgument => exact .inl rfl
  | ticks => exact .inl (dispatchEdges_frame s.sampleAndLatch).count
  | registers pin _ _ _ _ hslot => exact .inr ⟨⟨pin, rfl⟩, count_succ_toNat hslot⟩
  | acknowledges raised => exact .inl (acknowledge_frame s raised).count
  | resets => exact absurd rfl hi

/-- Settles O31: REGISTER writes the entry after the registered ones, and SETH and SETA replace one field of one entry. -/
theorem entriesChangeOnlyByTheirCommands : Obligations.EntriesChangeOnlyByTheirCommands :=
  fun _ _ _ _ hi h => ⟨(exec_effect h).count hi, fun _ hj => (exec_effect h).entryChange hi hj⟩

/-- R71: a word whose reserved bits are those of format N is its opcode and zeros. -/
theorem eq_append_of_reservedZeroN {v : Word} (h : reservedZeroN v = true) : v = opField v ++ 0#28 := by
  have hlow : v.extractLsb' 0 28 = 0#28 := by simpa [reservedZeroN] using h
  rw [← hlow, opField, BitVec.extractLsb'_append_extractLsb'_eq_extractLsb' (by rfl)]
  simp

/-- R76: RESET has one word. -/
theorem eq_of_decode_reset {v : Word} (h : decode v = .ok .reset) : v = 0xF0000000 := by
  have hrow : opField v = 0xF ∧ reservedZeroN v = true := by
    rcases decode_cases h with ⟨-, -, hi⟩ | ⟨-, -, hi⟩ | ⟨-, -, hi⟩ | ⟨-, -, hi⟩ | ⟨-, -, hi⟩ | ⟨hop, hzero, -⟩
    case inr.inr.inr.inr.inr => exact ⟨hop, hzero⟩
    all_goals exact Instr.noConfusion hi
  obtain ⟨hop, hzero⟩ := hrow
  rw [eq_append_of_reservedZeroN hzero, hop]
  rfl

/-- R206: no word but RESET's clears FAULT. -/
theorem fault_of_executeWord {v : Word} (hf : s.fault = true) (hv : v ≠ 0xF0000000) (h : executeWord v s = .next t) :
    t.fault = true := by
  rcases executeWord_effect h with ⟨i, hi, heffect⟩ | ⟨code, -, rfl⟩
  · have hreset : i ≠ .reset := by
      rintro rfl
      exact hv (eq_of_decode_reset hi)
    rw [heffect.of_fault hf hreset]
    exact hf
  · exact hf

/-- Settles O38: a step that neither `rst` nor the RESET word makes leaves FAULT at 1. -/
theorem onlyResetClearsFault : Obligations.OnlyResetClearsFault := by
  intro s t hs h (ht : t.fault = false)
  have hf : s.fault = true := by simpa [State.Safe] using hs
  rcases step_block_cases h with ⟨hr | ⟨rest, hb⟩, -⟩ | hsame | ⟨v, rest, hb, hword⟩
  · exact .inl hr
  · exact .inr ⟨_, rest, hb, .inr rfl⟩
  · exact absurd (hsame.fault.trans hf) (ne_true_of_eq_false ht)
  · by_cases hv : v = 0xF0000000
    · exact .inr ⟨_, rest, hb, .inl (congrArg commandWrite hv)⟩
    · exact absurd (fault_of_executeWord (s := { s with bus := rest }) hf hv hword) (ne_true_of_eq_false ht)

/-! ## Where the model stops (R20, R28, R37 item 1, R67, R217) -/

theorem unlessFaulted_completes {run : Result} (h : ∃ t, run = .next t) : ∃ t, unlessFaulted s run = .next t := by
  cases hf : s.fault with
  | true => exact ⟨_, unlessFaulted_eq_next.2 (.inl ⟨hf, rfl⟩)⟩
  | false =>
    obtain ⟨t, ht⟩ := h
    exact ⟨t, unlessFaulted_eq_next.2 (.inr ⟨hf, ht⟩)⟩

/-- R28: an entry below COUNT exists in the implementation. -/
theorem BlockInv.hasEntry (inv : BlockInv s) {i : Nat} (hi : i < s.params.maxButtons) : s.hasEntry i = true :=
  hasEntry_iff.2 ⟨hi, hi.trans_le inv.params.2⟩

theorem BlockInv.execRegister_completes (inv : BlockInv s) (pin : Byte) : ∃ t, execRegister pin s = .next t := by
  refine unlessFaulted_completes ?_
  have hfits := inv.countFits
  split_ifs with hd hpin hfull
  · exact ⟨_, rfl⟩
  · exact ⟨_, rfl⟩
  · exact ⟨_, rfl⟩
  · exact ⟨_, writeEntry_eq_next.2 ⟨inv.hasEntry (by omega), rfl⟩⟩

theorem BlockInv.updateEntry_completes (inv : BlockInv s) (e : Byte) (f : Entry → Entry) :
    ∃ t, updateEntry e f s = .next t := by
  refine unlessFaulted_completes ?_
  have hfits := inv.countFits
  split_ifs with he
  · exact ⟨_, rfl⟩
  · exact ⟨_, writeEntry_eq_next.2 ⟨inv.hasEntry (by omega), rfl⟩⟩

theorem BlockInv.exec_completes (inv : BlockInv s) (i : Instr) : ∃ t, exec i s = .next t := by
  cases i with
  | tick =>
    refine unlessFaulted_completes ?_
    split_ifs <;> exact ⟨_, rfl⟩
  | register pin => exact inv.execRegister_completes pin
  | seth e g p tok =>
    rw [exec_seth]
    exact inv.updateEntry_completes e _
  | seta e g p tok =>
    rw [exec_seta]
    exact inv.updateEntry_completes e _
  | ack raised =>
    refine unlessFaulted_completes ?_
    split_ifs <;> exact ⟨_, rfl⟩
  | reset => exact ⟨_, rfl⟩

theorem BlockInv.executeWord_completes (inv : BlockInv s) (v : Word) : ∃ t, executeWord v s = .next t := by
  unfold executeWord
  split
  next i _ => exact inv.exec_completes i
  next => exact unlessFaulted_completes ⟨_, rfl⟩

theorem BlockInv.busWrite_completes (inv : BlockInv s) (off : Offset) (n : Nat) (v : Word) :
    ∃ t, busWrite off n v s = .next t := by
  unfold busWrite
  split_ifs
  · exact inv.executeWord_completes v
  · exact ⟨_, rfl⟩
  · exact ⟨_, rfl⟩

/-- R67: every act is served but an access by a second context, which is refused. -/
theorem BlockInv.hostAct_completes (inv : BlockInv s) (a : HostAct) :
    (∃ t, hostAct a s = .next t) ∨
      hostAct a s = .refused .secondContext ∧
        ((∃ off n, a = .read .other off n) ∨ ∃ off n v, a = .write .other off n v) := by
  cases a with
  | read ctx off n =>
    cases ctx with
    | owner =>
      refine .inl ?_
      simp only [hostAct, onlyOwner, busRead]
      split_ifs <;> exact ⟨_, rfl⟩
    | other => exact .inr ⟨rfl, .inl ⟨off, n, rfl⟩⟩
  | write ctx off n v =>
    cases ctx with
    | owner => exact .inl (inv.busWrite_completes off n v)
    | other => exact .inr ⟨rfl, .inr ⟨off, n, v, rfl⟩⟩
  | setRst level => exact .inl ⟨_, rfl⟩
  | setSample v => exact .inl ⟨_, rfl⟩

theorem BlockInv.held (inv : BlockInv s) : BlockInv s.held := by
  unfold State.held
  split_ifs
  · exact inv.resetBlock
  · exact inv

theorem BlockInv.step_completes (inv : BlockInv s) :
    (∃ t, step s = .next t) ∨
      step s = .refused .secondContext ∧
        ∃ rest, (∃ off n, s.bus = .read .other off n :: rest) ∨ ∃ off n v, s.bus = .write .other off n v :: rest := by
  cases hb : s.bus with
  | nil => exact .inl ⟨s.held, by simp [step, serveBus, hb]⟩
  | cons a rest =>
    have inv' : BlockInv { s with bus := rest }.held := (inv.of_sameBlock (.outside s _ _ _ _ _)).held
    rw [step_of_bus hb]
    rcases inv'.hostAct_completes a with hnext | ⟨hrefused, ⟨off, n, rfl⟩ | ⟨off, n, v, rfl⟩⟩
    · exact .inl hnext
    · exact .inr ⟨hrefused, rest, .inl ⟨off, n, rfl⟩⟩
    · exact .inr ⟨hrefused, rest, .inr ⟨off, n, v, rfl⟩⟩

/-- Settles O46: item 1 of R37 gives every entry that a command writes, so only a second context is left to stop at. -/
theorem everyCommandCompletesUnderInvariant : Obligations.EveryCommandCompletesUnderInvariant := by
  intro s inv
  refine ⟨inv.exec_completes, fun r hr => ?fault, fun r hr => ?refused⟩
  case fault => rcases inv.step_completes with ⟨t, h⟩ | ⟨h, -⟩ <;> rw [h] at hr <;> cases hr
  case refused =>
    rcases inv.step_completes with ⟨t, h⟩ | ⟨h, hbus⟩ <;> rw [h] at hr <;> cases hr
    exact ⟨rfl, hbus⟩

/-- A table write at MAX_BUTTONS or beyond stops (log 7). -/
theorem writeEntry_of_ge {i : Nat} (hi : s.params.maxButtons ≤ i) (x : Entry) (rest : State → Result) :
    writeEntry s i x rest = .fault .noSuchEntry := by
  have hno : s.hasEntry i = false := by
    rw [Bool.eq_false_iff, ne_eq, hasEntry_iff]
    omega
  simp [writeEntry, hno]

theorem execRegister_of_count_gt {pin : Byte} (hf : s.fault = false) (hd : s.dispatching = false)
    (hpin : pin.toNat < 32) (hcount : s.params.maxButtons < s.count.toNat) :
    execRegister pin s = .fault .noSuchEntry := by
  have hrange : ¬ W ≤ pin.toNat := not_le.2 hpin
  rw [execRegister, unlessFaulted_of_not_fault hf, hd, if_neg Bool.false_ne_true, if_neg hrange, if_neg hcount.ne']
  exact writeEntry_of_ge hcount.le _ _

theorem updateEntry_of_ge {e : Byte} (f : Entry → Entry) (hf : s.fault = false) (he : e.toNat < s.count.toNat)
    (hmax : s.params.maxButtons ≤ e.toNat) : updateEntry e f s = .fault .noSuchEntry := by
  rw [updateEntry, unlessFaulted_of_not_fault hf, if_neg (not_le.2 he)]
  exact writeEntry_of_ge hmax _ _

/-- Settles O30: past the checks of the command only the table write is left, and its entry does not exist. -/
theorem missingTableEntryStops : Obligations.MissingTableEntryStops := by
  intro s pin e g p tok hf
  refine ⟨execRegister_of_count_gt hf, fun he hmax => ?_⟩
  rw [exec_seth, exec_seta]
  exact ⟨updateEntry_of_ge _ hf he hmax, updateEntry_of_ge _ hf he hmax⟩

/-! ## The reset values (R38, R146) -/

/-- Settles O33: RESET is `resetBlock` and RESULT OK, whatever the state. -/
theorem resetCommandRestoresResetValues : Obligations.ResetCommandRestoresResetValues := fun _ => rfl

/-- Settles O34: each register is read off `State.resetWith`, the entries from the zero table, and ID and CONFIG through
the window. -/
theorem resetValues : Obligations.ResetValues := by
  intro p s
  have hconfig : s.readWindow 0x02C = configWord p := readWindow_config s
  exact ⟨rfl, rfl, rfl, rfl, rfl, rfl, rfl, rfl, entry_resetWith p, rfl, rfl, rfl, rfl, rfl, rfl, readWindow_id s, hconfig⟩

end Sys2Proof.Machine
end

section
/-! The obligations of 20_memory.md: what each access to the register window does, where each offset leads, and the
fields of the words that are read. -/

namespace Sys2Proof.Machine

variable {s : State}

/-! ## Serving an access (R56, R58 to R60, R67, R230) -/

/-- R230, log 4: a held reset leaves the trace alone, so that an item is added to the trace of the state itself. -/
theorem held_note (s : State) (x : TraceItem) : s.held.note x = { s.held with trace := x :: s.trace } := by
  cases hr : s.rst with
  | true => rw [held_of_rst hr]; rfl
  | false => rw [held_of_not_rst hr]; rfl

theorem legalAccess_eq_false_iff {off : Offset} {n : Nat} :
    legalAccess off n = false ↔ n ≠ 4 ∨ off.toNat % 4 ≠ 0 := by
  rw [← Bool.not_eq_true, legalAccess_iff, Decidable.not_and_iff_or_not]

/-- R56: a bad read answers a bus error, not a word. -/
theorem busRead_of_not_legal {off : Offset} {n : Nat} (hl : legalAccess off n = false) :
    busRead off n s = .next (s.note .busError) := by
  simp [busRead, hl]

/-- R56: a bad write is a bus error, at CMD too. -/
theorem busWrite_of_not_legal {off : Offset} {n : Nat} (v : Word) (hl : legalAccess off n = false) :
    busWrite off n v s = .next (s.note .busError) := by
  simp [busWrite, hl]

/-- R59: a legal write to any offset but CMD is ignored. -/
theorem busWrite_of_ne_cmd {off : Offset} {n : Nat} (v : Word) (hl : legalAccess off n = true)
    (hoff : off ≠ cmdOffset) :
    busWrite off n v s = .next s := by
  simp [busWrite, hl, hoff]

/-- R60: with `rst` released, a write to CMD runs the word. -/
theorem hostAct_commandWrite_of_not_rst (v : Word) (hr : s.rst = false) :
    hostAct (commandWrite v) s = executeWord v s := by
  have hlegal : legalAccess cmdOffset 4 = true := by decide
  simp [commandWrite, hostAct, onlyOwner, busWrite, hlegal, hr]

theorem executeWord_of_decode {v : Word} {i : Instr} (hv : decode v = .ok i) : executeWord v s = exec i s := by
  simp [executeWord, hv]

/-- Settles O41: the write to CMD runs the word, and the word runs its instruction. -/
theorem stepRunsDecodedInstruction : Obligations.StepRunsDecodedInstruction := by
  intro s v i rest hr hb hv
  rw [step_of_bus_not_rst hr hb, hostAct_commandWrite_of_not_rst (s := { s with bus := rest }) v hr,
    executeWord_of_decode hv]

/-- Settles O47: the context is looked at before anything else of the access. -/
theorem secondContextIsRefused : Obligations.SecondContextIsRefused :=
  fun _ _ _ _ _ => ⟨step_of_bus, step_of_bus⟩

/-- Settles O53: a bad access, read or write, only adds the bus error to the trace. -/
theorem badAccessIsBusErrorWithoutEffect : Obligations.BadAccessIsBusErrorWithoutEffect := by
  intro s off n v rest hbad hb
  have hl : legalAccess off n = false := legalAccess_eq_false_iff.2 hbad
  refine ⟨?_, held_of_not_rst (s := { s with bus := rest })⟩
  rcases hb with hb | hb
  · rw [step_of_bus hb, hostAct, onlyOwner, busRead_of_not_legal hl, held_note]
  · rw [step_of_bus hb, hostAct, onlyOwner, busWrite_of_not_legal v hl, held_note]

/-! ## Where an offset leads (R51, R54, R59) -/

/-- R51: each row of the map of the registers below 0x030 is what the window shows at the row's offset. -/
theorem readWindow_of_mem_controlMap (s : State) {off : Offset} {r : Reg} (h : (off.toNat, r) ∈ controlMap) :
    s.readWindow off = s.readReg r := by
  have hmap : ∀ p ∈ controlMap, regAt p.1 = some p.2 := by decide
  exact readWindow_of_some (hmap _ h)

/-- R51: the words of an entry; the fourth one is reserved. -/
theorem entryReg_eq_some {i k : Nat} {r : Reg} (h : entryReg i k = some r) :
    r = .entryPin i ∨ r = .entryRise i ∨ r = .entryFall i := by
  unfold entryReg at h
  split_ifs at h
  · exact .inl (Option.some.inj h).symm
  · exact .inr (.inl (Option.some.inj h).symm)
  · exact .inr (.inr (Option.some.inj h).symm)

/-- R51, R54: an entry of MAX_BUTTONS or more is reserved. -/
theorem readReg_of_not_hasEntry {i k : Nat} {r : Reg} (hi : s.hasEntry i = false) (hr : entryReg i k = some r) :
    s.readReg r = 0 := by
  rcases entryReg_eq_some hr with rfl | rfl | rfl <;> simp [State.readReg, entryRead, hi]

/-- R51: the offsets from 0x100 to 0x2FF are the bytes of the 32 entries. -/
theorem regAt_table {off : Nat} (hlo : 0x100 ≤ off) (hhi : off < 0x300) :
    regAt off = entryReg ((off - 0x100) / 16) ((off - 0x100) % 16) := by
  have hoff : off = 0x100 + 16 * ((off - 0x100) / 16) + (off - 0x100) % 16 := by omega
  exact (congrArg regAt hoff).trans (regAt_entry (by omega) (by omega))

/-- R51, R59: the reserved offsets of the table read 0: the fourth word of an entry, and an entry that the
implementation does not have. -/
theorem readWindow_table_reserved {off : Offset} (hlo : 0x100 ≤ off.toNat) (hhi : off.toNat < 0x300)
    (h : off.toNat % 16 = 12 ∨ s.params.maxButtons ≤ (off.toNat - 0x100) / 16) : s.readWindow off = 0 := by
  have hreg := regAt_table hlo hhi
  rcases h with hword | hmax
  · have hk : (off.toNat - 0x100) % 16 = 12 := by omega
    rw [hk] at hreg
    exact readWindow_of_none hreg
  · have hmissing : s.hasEntry ((off.toNat - 0x100) / 16) = false := by simp [State.hasEntry, hmax]
    cases hr : entryReg ((off.toNat - 0x100) / 16) ((off.toNat - 0x100) % 16) with
    | none => exact readWindow_of_none (hreg.trans hr)
    | some r => rw [readWindow_of_some (hreg.trans hr), readReg_of_not_hasEntry hmissing hr]

/-- Settles O55: a write to another offset than CMD leaves the state, and each reserved range leads to no register or to
an entry that does not exist. -/
theorem otherWritesIgnoredAndReservedReadsZero : Obligations.OtherWritesIgnoredAndReservedReadsZero := by
  intro s off v rest halign
  refine ⟨fun hoff hb => ⟨?write, held_of_not_rst (s := { s with bus := rest })⟩, fun hres => ?read⟩
  case write =>
    rw [step_of_bus hb, hostAct, onlyOwner, busWrite_of_ne_cmd v (legalAccess_iff.2 ⟨rfl, halign⟩) hoff]
  case read =>
    rcases hres with ⟨hlo, hhi⟩ | hbeyond | ⟨hlo, hhi, hres⟩
    · exact readWindow_of_none ((regAt_control hhi).trans (controlReg_reserved hlo))
    · exact readWindow_of_none (regAt_beyond hbeyond)
    · exact readWindow_table_reserved hlo hhi hres

theorem readWindow_cmd (s : State) : s.readWindow 0x004 = 0 := readWindow_of_mem_controlMap s (r := .cmd) (by decide)

theorem readWindow_status (s : State) : s.readWindow 0x008 = s.statusWord :=
  readWindow_of_mem_controlMap s (r := .status) (by decide)

/-- Log 10: the window shows nothing of the trace. -/
theorem readWindow_note (s : State) (x : TraceItem) (off : Offset) : (s.note x).readWindow off = s.readWindow off := by
  cases hreg : regAt off.toNat with
  | none => rw [readWindow_of_none hreg, readWindow_of_none hreg]
  | some r =>
    rw [readWindow_of_some hreg, readWindow_of_some hreg]
    cases r <;> rfl

/-- Settles O54: a read only adds its word to the trace, which no register shows. -/
theorem readsHaveNoSideEffect : Obligations.ReadsHaveNoSideEffect := by
  intro s t off rest halign hb hstep
  rw [step_of_bus hb, hostAct, onlyOwner, busRead_of_legal (legalAccess_iff.2 ⟨rfl, halign⟩), next_inj] at hstep
  subst hstep
  exact ⟨held_note _ _, readWindow_note _ _, readWindow_cmd _, held_of_not_rst (s := { s with bus := rest })⟩

/-- Settles O56: one row of the map per register. -/
theorem windowShowsTheRegisters : Obligations.WindowShowsTheRegisters := fun s =>
  ⟨readWindow_id s, readWindow_cmd s, readWindow_status s,
    readWindow_of_mem_controlMap s (r := .rawState) (by decide),
    readWindow_of_mem_controlMap s (r := .counter0) (by decide),
    readWindow_of_mem_controlMap s (r := .counter1) (by decide),
    readWindow_of_mem_controlMap s (r := .lastState) (by decide),
    readWindow_of_mem_controlMap s (r := .delta) (by decide),
    readWindow_of_mem_controlMap s (r := .rising) (by decide),
    readWindow_of_mem_controlMap s (r := .falling) (by decide),
    readWindow_of_mem_controlMap s (r := .event) (by decide), readWindow_config s⟩

/-- R54: ENTRY_PIN of an existing entry stands at the entry's first word. -/
theorem readWindow_entryPin {i : Nat} (hi : i < 32) (hmax : i < s.params.maxButtons) :
    s.readWindow (BitVec.ofNat 10 (0x100 + 16 * i)) = entryPinWord (decide (i < s.count.toNat)) (s.entry i) := by
  have hoff : (BitVec.ofNat 10 (0x100 + 16 * i)).toNat = 0x100 + 16 * i + 0 := by
    rw [BitVec.toNat_ofNat]
    omega
  have hreg := (congrArg regAt hoff).trans (regAt_entry hi (by decide))
  exact (readWindow_of_some (r := .entryPin i) hreg).trans (if_pos (hasEntry_iff.2 ⟨hmax, hi⟩))

/-- R54: ENTRY_RISE and ENTRY_FALL of an existing entry stand at its second and third word. -/
theorem readWindow_entryEdge {i : Nat} (hi : i < 32) (hmax : i < s.params.maxButtons) (g : Edge) :
    s.readWindow (BitVec.ofNat 10 (0x104 + 4 * (bitOfEdge g).toNat + 16 * i)) = entryEdgeWord (s.entry i) g := by
  have hentry := hasEntry_iff.2 ⟨hmax, hi⟩
  have hbit : (bitOfEdge g).toNat ≤ 1 := (bitOfEdge g).toNat_le
  have hoff : (BitVec.ofNat 10 (0x104 + 4 * (bitOfEdge g).toNat + 16 * i)).toNat
      = 0x100 + 16 * i + (4 + 4 * (bitOfEdge g).toNat) := by
    rw [BitVec.toNat_ofNat]
    omega
  have hreg := (congrArg regAt hoff).trans (regAt_entry hi (by omega))
  cases g with
  | rise => exact (readWindow_of_some (r := .entryRise i) hreg).trans (if_pos hentry)
  | fall => exact (readWindow_of_some (r := .entryFall i) hreg).trans (if_pos hentry)

/-! ## The fields of a word (R52 to R55)

A word is written as its fields, the highest first: a field is found by dropping the fields below it and taking the
lowest of what is left. A flag is a field of one bit. -/

/-- A flag is read off as the field of one bit that it is. -/
theorem getLsbD_of_flag {w k : Nat} {v : BitVec w} {b : Bool} (h : v.extractLsb' k 1 = BitVec.ofBool b) :
    v.getLsbD k = b := by
  rw [BitVec.getLsbD_eq_extractLsb', h]
  cases b <;> rfl

/-- R52: the fields of STATUS, from bit 0 up. -/
theorem statusWord_fields (s : State) :
    s.statusWord.extractLsb' 0 4 = s.result.code ∧
    s.statusWord.extractLsb' 4 1 = BitVec.ofBool s.dispatching ∧
    s.statusWord.extractLsb' 5 1 = BitVec.ofBool s.fault ∧
    s.statusWord.extractLsb' 6 2 = 0 ∧
    s.statusWord.extractLsb' 8 4 = s.faultCode.code ∧
    s.statusWord.extractLsb' 12 4 = 0 ∧
    s.statusWord.extractLsb' 16 8 = s.count ∧
    s.statusWord.extractLsb' 24 8 = 0 := by
  simp only [State.statusWord, BitVec.extractLsb'_append_eq_of_le, Nat.reduceLeDiff, Nat.reduceSub,
    BitVec.extractLsb'_append_eq_right, BitVec.extractLsb'_eq_self, BitVec.ofNat_eq_ofNat, and_self]

/-- R53: the handler, its argument and the argument's flag, between PIN and EDGE of the event word. -/
theorem eventWord_tokens (p : Pos) (x : Entry) :
    (eventWord p x).extractLsb' 8 8 = (x.h p.phase).token ∧
    (eventWord p x).extractLsb' 16 8 = (x.a p.phase).token ∧
    (eventWord p x).extractLsb' 24 1 = BitVec.ofBool (x.a p.phase).present := by
  simp only [eventWord, BitVec.extractLsb'_append_eq_of_le, Nat.reduceLeDiff, Nat.reduceSub,
    BitVec.extractLsb'_append_eq_right, and_self]

/-- R54: the fields of ENTRY_PIN, from bit 0 up. -/
theorem entryPinWord_fields (valid : Bool) (x : Entry) :
    (entryPinWord valid x).extractLsb' 0 8 = x.pin ∧
    (entryPinWord valid x).extractLsb' 8 23 = 0 ∧
    (entryPinWord valid x).extractLsb' 31 1 = BitVec.ofBool valid := by
  simp only [entryPinWord, BitVec.extractLsb'_append_eq_of_le, Nat.reduceLeDiff, Nat.reduceSub,
    BitVec.extractLsb'_append_eq_right, BitVec.extractLsb'_eq_self, BitVec.ofNat_eq_ofNat, and_self]

/-- R54: the fields of ENTRY_RISE and ENTRY_FALL, from bit 0 up. -/
theorem entryEdgeWord_fields (x : Entry) (g : Edge) :
    (entryEdgeWord x g).extractLsb' 0 8 = (x.h g).token ∧
    (entryEdgeWord x g).extractLsb' 8 1 = BitVec.ofBool (x.h g).present ∧
    (entryEdgeWord x g).extractLsb' 9 7 = 0 ∧
    (entryEdgeWord x g).extractLsb' 16 8 = (x.a g).token ∧
    (entryEdgeWord x g).extractLsb' 24 1 = BitVec.ofBool (x.a g).present ∧
    (entryEdgeWord x g).extractLsb' 25 7 = 0 := by
  simp only [entryEdgeWord, BitVec.extractLsb'_append_eq_of_le, Nat.reduceLeDiff, Nat.reduceSub,
    BitVec.extractLsb'_append_eq_right, BitVec.extractLsb'_eq_self, BitVec.ofNat_eq_ofNat, and_self]

/-- R55: the fields of CONFIG, from bit 0 up. -/
theorem configWord_fields (p : Config.Params) :
    (configWord p).extractLsb' 0 8 = BitVec.ofNat 8 W ∧
    (configWord p).extractLsb' 8 8 = BitVec.ofNat 8 p.maxButtons ∧
    (configWord p).extractLsb' 16 8 = 8 ∧
    (configWord p).extractLsb' 24 1 = BitVec.ofBool p.abortCommitsLast ∧
    (configWord p).extractLsb' 25 7 = 0 := by
  simp only [configWord, BitVec.extractLsb'_append_eq_of_le, Nat.reduceLeDiff, Nat.reduceSub,
    BitVec.extractLsb'_append_eq_right, BitVec.extractLsb'_eq_self, BitVec.ofNat_eq_ofNat, and_self]

/-- Settles O57: the fields of the STATUS word, with the codes of R201 and R202 written out. -/
theorem statusFields : Obligations.StatusFields := by
  intro s
  obtain ⟨hresult, hdispatching, hfault, hbits6, hcode, hbits12, hcount, hbits24⟩ := statusWord_fields s
  rw [readWindow_status]
  refine ⟨hresult.trans ?result, getLsbD_of_flag hdispatching, getLsbD_of_flag hfault, hbits6, hcode.trans ?code,
    hbits12, hcount, hbits24⟩
  case result => cases s.result <;> rfl
  case code => cases s.faultCode <;> rfl

/-- Settles O58: ENTRY has room for e < 32, and EDGE is 1 for FALL alone. -/
theorem eventFields : Obligations.EventFields := by
  intro e g x he
  obtain ⟨hhandler, hargs, hpresent⟩ := eventWord_tokens ⟨e, g⟩ x
  refine ⟨eventWord_pin _ x, hhandler, hargs, getLsbD_of_flag hpresent, ?edge, ?entry, eventWord_valid _ x⟩
  case edge =>
    rw [eventWord_edge]
    cases g <;> simp [bitOfEdge]
  case entry => rw [eventWord_entry, BitVec.toNat_ofNat, Nat.mod_eq_of_lt he]

/-- Settles O59: the words of an existing entry, where the window shows them. -/
theorem entryWindowFields : Obligations.EntryWindowFields := by
  intro s i hi hmax p edge
  obtain ⟨hpin, hbits8, hvalid⟩ := entryPinWord_fields (decide (i < s.count.toNat)) (s.entry i)
  have hp : p = entryPinWord (decide (i < s.count.toNat)) (s.entry i) := readWindow_entryPin hi hmax
  rw [hp]
  refine ⟨hpin, hbits8, by rw [getLsbD_of_flag hvalid, decide_eq_true_iff], fun g => ?_⟩
  obtain ⟨hhandler, hpresent, hbits9, hargs, hargsPresent, hbits25⟩ := entryEdgeWord_fields (s.entry i) g
  have hedge : edge g = entryEdgeWord (s.entry i) g := readWindow_entryEdge hi hmax g
  rw [hedge]
  exact ⟨hhandler, getLsbD_of_flag hpresent, hbits9, hargs, getLsbD_of_flag hargsPresent, hbits25⟩

/-- Settles O60: CONFIG is a word of the parameters, which no step changes; MAX_BUTTONS ≤ 32 fits its 8 bits. -/
theorem configFields : Obligations.ConfigFields := by
  intro s hlegal
  obtain ⟨hwidth, hbuttons, htoken, habort, hbits25⟩ := configWord_fields s.params
  refine ⟨fun t hstep => ?constant, ?_⟩
  case constant =>
    obtain ⟨-, -, hconfig⟩ := stepKeepsConstants s t hstep
    exact hconfig
  rw [readWindow_config]
  refine ⟨hwidth, ?maxButtons, htoken, getLsbD_of_flag habort, hbits25⟩
  case maxButtons =>
    have hle : s.params.maxButtons ≤ 32 := hlegal.2
    rw [hbuttons, BitVec.toNat_ofNat, Nat.mod_eq_of_lt (by omega)]

end Sys2Proof.Machine
end

section
/-! The obligations of 30_encoding.md about the words: the fields of a command word, and the decoder against the encoder
and against the opcode map. -/

namespace Sys2Proof

variable {v : Word}

/-! ## Words as their fields (R70 to R74) -/

/-- A flag is the field of one bit that it is. -/
theorem ofBool_getLsbD (v : Word) (k : Nat) : BitVec.ofBool (v.getLsbD k) = v.extractLsb' k 1 := by
  ext i hi
  obtain rfl : i = 0 := by omega
  simp

@[simp] theorem edgeOfBit_bitOfEdge (g : Edge) : edgeOfBit (bitOfEdge g) = g := by cases g <;> rfl

@[simp] theorem bitOfEdge_edgeOfBit (b : Bool) : bitOfEdge (edgeOfBit b) = b := by cases b <;> rfl

/-- R72: a word is its opcode, the reserved bits of format P, and PIN. -/
theorem fieldsP (v : Word) : opField v ++ v.extractLsb' 8 20 ++ pinField v = v := by
  rw [opField, pinField, BitVec.extractLsb'_append_extractLsb'_eq_extractLsb' (by rfl),
    BitVec.extractLsb'_append_extractLsb'_eq_extractLsb' (by rfl)]
  exact BitVec.extractLsb'_eq_self

/-- R74: a word is its opcode, the reserved bits of format A, and RAISED. -/
theorem fieldsA (v : Word) : opField v ++ v.extractLsb' 1 27 ++ BitVec.ofBool (raisedField v) = v := by
  rw [opField, raisedField, ofBool_getLsbD, BitVec.extractLsb'_append_extractLsb'_eq_extractLsb' (by rfl),
    BitVec.extractLsb'_append_extractLsb'_eq_extractLsb' (by rfl)]
  exact BitVec.extractLsb'_eq_self

/-- R73: a word is its opcode, ENTRY, EDGE, PRESENT, the bits of TOKEN, and the two reserved fields of format E. -/
theorem fieldsE (v : Word) :
    opField v ++ v.extractLsb' 24 4 ++ entryField v ++ BitVec.ofBool (bitOfEdge (edgeField v)) ++ v.extractLsb' 9 6
      ++ BitVec.ofBool (presentField v) ++ v.extractLsb' 0 8 = v := by
  rw [opField, entryField, edgeField, bitOfEdge_edgeOfBit, presentField, ofBool_getLsbD, ofBool_getLsbD]
  iterate 6 rw [BitVec.extractLsb'_append_extractLsb'_eq_extractLsb' (by rfl)]
  exact BitVec.extractLsb'_eq_self

theorem reservedZeroN_iff : reservedZeroN v = true ↔ v.extractLsb' 0 28 = 0 := beq_iff_eq

theorem reservedZeroP_iff : reservedZeroP v = true ↔ v.extractLsb' 8 20 = 0 := beq_iff_eq

theorem reservedZeroA_iff : reservedZeroA v = true ↔ v.extractLsb' 1 27 = 0 := beq_iff_eq

theorem reservedZeroE_iff : reservedZeroE v = true ↔ v.extractLsb' 24 4 = 0 ∧ v.extractLsb' 9 6 = 0 := by
  simp [reservedZeroE]

/-! ## The fields of an encoded word -/

/-- R73: the fields of a word of format E, from bit 0 up. -/
theorem encodeE_slices (op : BitVec 4) (e : Byte) (g : Edge) (p : Bool) (tok : Token) :
    (encodeE op e g p tok).extractLsb' 0 8 = tok ∧
    (encodeE op e g p tok).extractLsb' 8 1 = BitVec.ofBool p ∧
    (encodeE op e g p tok).extractLsb' 9 6 = 0 ∧
    (encodeE op e g p tok).extractLsb' 15 1 = BitVec.ofBool (bitOfEdge g) ∧
    (encodeE op e g p tok).extractLsb' 16 8 = e ∧
    (encodeE op e g p tok).extractLsb' 24 4 = 0 ∧
    (encodeE op e g p tok).extractLsb' 28 4 = op := by
  simp only [encodeE, BitVec.extractLsb'_append_eq_of_le, Nat.reduceLeDiff, Nat.reduceSub,
    BitVec.extractLsb'_append_eq_right, BitVec.extractLsb'_eq_self, BitVec.ofNat_eq_ofNat, and_self]

/-- R73: what the decoder reads in a word of format E. -/
theorem encodeE_fields (op : BitVec 4) (e : Byte) (g : Edge) (p : Bool) (tok : Token) :
    opField (encodeE op e g p tok) = op ∧ reservedZeroE (encodeE op e g p tok) = true ∧
    entryField (encodeE op e g p tok) = e ∧ edgeField (encodeE op e g p tok) = g ∧
    presentField (encodeE op e g p tok) = p ∧ tokenField (encodeE op e g p tok) = tokenOperand p tok := by
  obtain ⟨htok, hp, hlow, hg, he, hhigh, hop⟩ := encodeE_slices op e g p tok
  have hpresent : presentField (encodeE op e g p tok) = p := Machine.getLsbD_of_flag hp
  have hedge : edgeField (encodeE op e g p tok) = g := by
    rw [edgeField, Machine.getLsbD_of_flag hg, edgeOfBit_bitOfEdge]
  exact ⟨hop, reservedZeroE_iff.2 ⟨hhigh, hlow⟩, he, hedge, hpresent, congrArg₂ tokenOperand hpresent htok⟩

/-- R72: what the decoder reads in the word of REGISTER. -/
theorem encode_register_fields (pin : Byte) :
    opField (encode (.register pin)) = 0x2 ∧ reservedZeroP (encode (.register pin)) = true ∧
    pinField (encode (.register pin)) = pin := by
  simp only [encode, opField, reservedZeroP_iff, pinField, BitVec.extractLsb'_append_eq_of_le, Nat.reduceLeDiff,
    Nat.reduceSub, BitVec.extractLsb'_append_eq_right, BitVec.extractLsb'_eq_self, BitVec.ofNat_eq_ofNat, and_self]

/-! ## The rows of the decoder (R76, R82) -/

theorem decode_eq_tick_iff : decode v = .ok .tick ↔ opField v = 0x1 ∧ reservedZeroN v = true :=
  ⟨fun h => by simpa using decode_cases h, fun ⟨hop, hzero⟩ => by simp [decode, whenReservedZero, hop, hzero]⟩

theorem decode_eq_register_iff {pin : Byte} :
    decode v = .ok (.register pin) ↔ opField v = 0x2 ∧ reservedZeroP v = true ∧ pin = pinField v :=
  ⟨fun h => by simpa using decode_cases h,
    fun ⟨hop, hzero, hpin⟩ => by simp [decode, whenReservedZero, hop, hzero, hpin]⟩

theorem decode_eq_seth_iff {e : Byte} {g : Edge} {p : Bool} {tok : Token} :
    decode v = .ok (.seth e g p tok) ↔ opField v = 0x3 ∧ reservedZeroE v = true ∧
      e = entryField v ∧ g = edgeField v ∧ p = presentField v ∧ tok = tokenField v :=
  ⟨fun h => by simpa using decode_cases h,
    fun ⟨hop, hzero, he, hg, hp, htok⟩ => by simp [decode, whenReservedZero, hop, hzero, he, hg, hp, htok]⟩

theorem decode_eq_seta_iff {e : Byte} {g : Edge} {p : Bool} {tok : Token} :
    decode v = .ok (.seta e g p tok) ↔ opField v = 0x4 ∧ reservedZeroE v = true ∧
      e = entryField v ∧ g = edgeField v ∧ p = presentField v ∧ tok = tokenField v :=
  ⟨fun h => by simpa using decode_cases h,
    fun ⟨hop, hzero, he, hg, hp, htok⟩ => by simp [decode, whenReservedZero, hop, hzero, he, hg, hp, htok]⟩

theorem decode_eq_ack_iff {raised : Bool} :
    decode v = .ok (.ack raised) ↔ opField v = 0x5 ∧ reservedZeroA v = true ∧ raised = raisedField v :=
  ⟨fun h => by simpa using decode_cases h,
    fun ⟨hop, hzero, hraised⟩ => by simp [decode, whenReservedZero, hop, hzero, hraised]⟩

theorem decode_eq_reset_iff : decode v = .ok .reset ↔ opField v = 0xF ∧ reservedZeroN v = true :=
  ⟨fun h => by simpa using decode_cases h, fun ⟨hop, hzero⟩ => by simp [decode, whenReservedZero, hop, hzero]⟩

/-- R10, R78: the token of a well-formed instruction is the one its operands give. -/
theorem tokenOperand_eq_self_iff {p : Bool} {tok : Token} : tokenOperand p tok = tok ↔ tokenWellFormed p tok := by
  cases p with
  | false => exact ⟨fun h _ => h.symm, fun h => (h rfl).symm⟩
  | true => exact iff_of_true rfl nofun

/-- Settles O1: the decoder takes the row of the word's opcode, and reads each operand where the encoder put it. -/
theorem decodeInvertsEncode : Obligations.DecodeInvertsEncode := by
  intro i hwf
  cases i with
  | tick => exact decode_eq_tick_iff.2 ⟨rfl, rfl⟩
  | register pin =>
    obtain ⟨hop, hzero, hpin⟩ := encode_register_fields pin
    exact decode_eq_register_iff.2 ⟨hop, hzero, hpin.symm⟩
  | seth e g p tok =>
    obtain ⟨hop, hzero, he, hg, hp, htok⟩ := encodeE_fields 0x3 e g p tok
    have hself : tokenOperand p tok = tok := tokenOperand_eq_self_iff.2 (of_decide_eq_true hwf)
    exact decode_eq_seth_iff.2 ⟨hop, hzero, he.symm, hg.symm, hp.symm, (htok.trans hself).symm⟩
  | seta e g p tok =>
    obtain ⟨hop, hzero, he, hg, hp, htok⟩ := encodeE_fields 0x4 e g p tok
    have hself : tokenOperand p tok = tok := tokenOperand_eq_self_iff.2 (of_decide_eq_true hwf)
    exact decode_eq_seta_iff.2 ⟨hop, hzero, he.symm, hg.symm, hp.symm, (htok.trans hself).symm⟩
  | ack raised => cases raised <;> exact decode_eq_ack_iff.2 ⟨rfl, rfl, rfl⟩
  | reset => exact decode_eq_reset_iff.2 ⟨rfl, rfl⟩

/-! ## A word from its fields -/

theorem encodeE_of_fields (hzero : reservedZeroE v = true) :
    encodeE (opField v) (entryField v) (edgeField v) (presentField v) (v.extractLsb' 0 8) = v := by
  obtain ⟨hhigh, hlow⟩ := reservedZeroE_iff.1 hzero
  have hfields := fieldsE v
  rw [hhigh, hlow] at hfields
  exact hfields

theorem append_zero_of_fields {op : BitVec 4} (hop : opField v = op) (hzero : reservedZeroN v = true) :
    op ++ 0#28 = v := hop ▸ (Machine.eq_append_of_reservedZeroN hzero).symm

theorem encode_register_of_fields (hop : opField v = 0x2) (hzero : reservedZeroP v = true) :
    encode (.register (pinField v)) = v := by
  have hfields := fieldsP v
  rw [hop, reservedZeroP_iff.1 hzero] at hfields
  exact hfields

theorem encode_ack_of_fields (hop : opField v = 0x5) (hzero : reservedZeroA v = true) :
    encode (.ack (raisedField v)) = v := by
  have hfields := fieldsA v
  rw [hop, reservedZeroA_iff.1 hzero] at hfields
  exact hfields

/-! ## A word under a mask (R76) -/

/-- Where the mask is ones, the word's bits stay. -/
theorem extractLsb'_and_of_ones {m : Word} {k n : Nat} (h : m.extractLsb' k n = BitVec.allOnes n) :
    (v &&& m).extractLsb' k n = v.extractLsb' k n := by
  rw [BitVec.extractLsb'_and, h, BitVec.and_allOnes]

/-- Where the mask is zeros, no bit stays. -/
theorem extractLsb'_and_of_zeros {m : Word} {k n : Nat} (h : m.extractLsb' k n = 0#n) :
    (v &&& m).extractLsb' k n = 0#n := by
  rw [BitVec.extractLsb'_and, h, BitVec.and_zero]

/-- The mask of format E keeps the opcode and the reserved bits, and clears the operands. -/
theorem and_maskE_eq_iff {op : BitVec 4} :
    v &&& 0xFF007E00 = encodeE op 0 .rise false 0 ↔ opField v = op ∧ reservedZeroE v = true := by
  have hop : opField (v &&& 0xFF007E00) = opField v := extractLsb'_and_of_ones rfl
  have hhigh : (v &&& 0xFF007E00).extractLsb' 24 4 = v.extractLsb' 24 4 := extractLsb'_and_of_ones rfl
  have hlow : (v &&& 0xFF007E00).extractLsb' 9 6 = v.extractLsb' 9 6 := extractLsb'_and_of_ones rfl
  have hzero : reservedZeroE (v &&& 0xFF007E00) = reservedZeroE v := by rw [reservedZeroE, hhigh, hlow, reservedZeroE]
  have he : entryField (v &&& 0xFF007E00) = 0 := extractLsb'_and_of_zeros rfl
  have htok : (v &&& 0xFF007E00).extractLsb' 0 8 = 0 := extractLsb'_and_of_zeros rfl
  have hg : edgeField (v &&& 0xFF007E00) = .rise := by simp [edgeField, edgeOfBit]
  have hp : presentField (v &&& 0xFF007E00) = false := by simp [presentField]
  constructor
  · intro h
    obtain ⟨hop', hzero', -⟩ := encodeE_fields op 0 .rise false 0
    rw [← hop, ← hzero, h]
    exact ⟨hop', hzero'⟩
  · rintro ⟨rfl, hreserved⟩
    have hword := encodeE_of_fields (hzero.trans hreserved)
    rw [hop, he, hg, hp, htok] at hword
    exact hword.symm

/-- The mask of format P keeps the opcode and the reserved bits, and clears PIN. -/
theorem and_maskP_eq_iff :
    v &&& 0xFFFFFF00 = encode (.register 0) ↔ opField v = 0x2 ∧ reservedZeroP v = true := by
  have hop : opField (v &&& 0xFFFFFF00) = opField v := extractLsb'_and_of_ones rfl
  have hreserved : (v &&& 0xFFFFFF00).extractLsb' 8 20 = v.extractLsb' 8 20 := extractLsb'_and_of_ones rfl
  have hzero : reservedZeroP (v &&& 0xFFFFFF00) = reservedZeroP v := by rw [reservedZeroP, hreserved, reservedZeroP]
  have hpin : pinField (v &&& 0xFFFFFF00) = 0 := extractLsb'_and_of_zeros rfl
  constructor
  · intro h
    rw [← hop, ← hzero, h]
    exact ⟨rfl, rfl⟩
  · rintro ⟨hrow, hz⟩
    rw [← hpin, encode_register_of_fields (hop.trans hrow) (hzero.trans hz)]

/-- The mask of format A keeps the opcode and the reserved bits, and clears RAISED. -/
theorem and_maskA_eq_iff : v &&& 0xFFFFFFFE = encode (.ack false) ↔ opField v = 0x5 ∧ reservedZeroA v = true := by
  have hop : opField (v &&& 0xFFFFFFFE) = opField v := extractLsb'_and_of_ones rfl
  have hreserved : (v &&& 0xFFFFFFFE).extractLsb' 1 27 = v.extractLsb' 1 27 := extractLsb'_and_of_ones rfl
  have hzero : reservedZeroA (v &&& 0xFFFFFFFE) = reservedZeroA v := by rw [reservedZeroA, hreserved, reservedZeroA]
  have hraised : raisedField (v &&& 0xFFFFFFFE) = false := by simp [raisedField]
  constructor
  · intro h
    rw [← hop, ← hzero, h]
    exact ⟨rfl, rfl⟩
  · rintro ⟨hrow, hz⟩
    rw [← hraised, encode_ack_of_fields (hop.trans hrow) (hzero.trans hz)]

/-- The mask of format N keeps every bit. -/
theorem and_maskN_eq_iff {op : BitVec 4} :
    v &&& 0xFFFFFFFF = op ++ 0#28 ↔ opField v = op ∧ reservedZeroN v = true := by
  have hword : v &&& 0xFFFFFFFF = v := BitVec.and_allOnes
  rw [hword]
  constructor
  · rintro rfl
    exact ⟨BitVec.extractLsb'_append_eq_left, reservedZeroN_iff.2 BitVec.extractLsb'_append_eq_right⟩
  · rintro ⟨hop, hzero⟩
    exact (append_zero_of_fields hop hzero).symm

/-- Settles O4: a row's mask and match are its opcode and its reserved bits, and the decoder looks at nothing else. -/
theorem wordIsInstructionOfRowExactlyByMask : Obligations.WordIsInstructionOfRowExactlyByMask := by
  intro v
  refine ⟨?tick, ?register, ?seth, ?seta, ?ack, ?reset⟩
  case tick => exact decode_eq_tick_iff.trans and_maskN_eq_iff.symm
  case register =>
    simp only [decode_eq_register_iff, exists_and_left, exists_eq, and_true]
    exact and_maskP_eq_iff.symm
  case seth =>
    simp only [decode_eq_seth_iff, exists_and_left, exists_eq, and_true]
    exact and_maskE_eq_iff.symm
  case seta =>
    simp only [decode_eq_seta_iff, exists_and_left, exists_eq, and_true]
    exact and_maskE_eq_iff.symm
  case ack =>
    simp only [decode_eq_ack_iff, exists_and_left, exists_eq, and_true]
    exact and_maskA_eq_iff.symm
  case reset => exact decode_eq_reset_iff.trans and_maskN_eq_iff.symm

/-! ## What is decoded (R75, R78) -/

theorem tokenField_of_present (hp : presentField v = true) : tokenField v = v.extractLsb' 0 8 := if_pos hp

theorem tokenField_of_absent (hp : presentField v = false) : tokenField v = 0 := if_neg (ne_true_of_eq_false hp)

theorem tokenField_wellFormed (v : Word) : tokenWellFormed (presentField v) (tokenField v) := tokenField_of_absent

/-- R78: clearing the low byte of a word of format E clears TOKEN. -/
theorem encodeE_token_zero (hzero : reservedZeroE v = true) :
    encodeE (opField v) (entryField v) (edgeField v) (presentField v) 0 = v &&& 0xFFFFFF00 := by
  have hop : opField (v &&& 0xFFFFFF00) = opField v := extractLsb'_and_of_ones rfl
  have hhigh : (v &&& 0xFFFFFF00).extractLsb' 24 4 = v.extractLsb' 24 4 := extractLsb'_and_of_ones rfl
  have hlow : (v &&& 0xFFFFFF00).extractLsb' 9 6 = v.extractLsb' 9 6 := extractLsb'_and_of_ones rfl
  have hzero' : reservedZeroE (v &&& 0xFFFFFF00) = true := by rwa [reservedZeroE, hhigh, hlow]
  have he : entryField (v &&& 0xFFFFFF00) = entryField v := extractLsb'_and_of_ones rfl
  have hg : edgeField (v &&& 0xFFFFFF00) = edgeField v := by simp [edgeField]
  have hp : presentField (v &&& 0xFFFFFF00) = presentField v := by simp [presentField]
  have htok : (v &&& 0xFFFFFF00).extractLsb' 0 8 = 0 := extractLsb'_and_of_zeros rfl
  have hword := encodeE_of_fields hzero'
  rwa [hop, he, hg, hp, htok] at hword

/-- R78: with the token that the decoder reads, a word of format E is the one decoded without the ignored bits. -/
theorem encodeE_tokenField (hzero : reservedZeroE v = true) :
    encodeE (opField v) (entryField v) (edgeField v) (presentField v) (tokenField v)
      = if presentField v = false then v &&& 0xFFFFFF00 else v := by
  split_ifs with hp
  · rw [tokenField_of_absent hp, encodeE_token_zero hzero]
  · rw [tokenField_of_present (Bool.eq_true_of_not_eq_false hp), encodeE_of_fields hzero]

/-- Settles O2: each row of the decoder is encoded from the fields it was read from; TOKEN alone may be read as 0. -/
theorem decodedWordReencodes : Obligations.DecodedWordReencodes := by
  intro v i h
  change i.WellFormed ∧
    encode i = if (opField v = 0x3 ∨ opField v = 0x4) ∧ presentField v = false then v &&& 0xFFFFFF00 else v
  rcases decode_cases h with ⟨hop, hzero, rfl⟩ | ⟨hop, hzero, rfl⟩ | ⟨hop, hzero, rfl⟩ | ⟨hop, hzero, rfl⟩ |
    ⟨hop, hzero, rfl⟩ | ⟨hop, hzero, rfl⟩
  · exact ⟨rfl, by simpa [hop, encode] using append_zero_of_fields hop hzero⟩
  · exact ⟨rfl, by simpa [hop] using encode_register_of_fields hop hzero⟩
  · exact ⟨decide_eq_true (tokenField_wellFormed v), by simpa [hop, encode] using encodeE_tokenField hzero⟩
  · exact ⟨decide_eq_true (tokenField_wellFormed v), by simpa [hop, encode] using encodeE_tokenField hzero⟩
  · exact ⟨rfl, by simpa [hop] using encode_ack_of_fields hop hzero⟩
  · exact ⟨rfl, by simpa [hop, encode] using append_zero_of_fields hop hzero⟩

/-- R9, R73: EDGE is FALL exactly when bit 15 is 1. -/
theorem edgeField_eq_fall_iff (v : Word) : edgeField v = .fall ↔ v.getLsbD 15 = true := by
  rw [edgeField]
  cases v.getLsbD 15 <;> simp [edgeOfBit]

/-- R75: the operands of a word of format E. -/
theorem operandsE (v : Word) :
    entryField v = v.extractLsb' 16 8 ∧ (edgeField v = .fall ↔ v.getLsbD 15 = true) ∧
    presentField v = v.getLsbD 8 ∧ (presentField v = true → tokenField v = v.extractLsb' 0 8) ∧
    (presentField v = false → tokenField v = 0) :=
  ⟨rfl, edgeField_eq_fall_iff v, rfl, tokenField_of_present, tokenField_of_absent⟩

/-- Settles O3: the operands in each row of the decoder are the fields of the word. -/
theorem decodedOperandsAreBitSlices : Obligations.DecodedOperandsAreBitSlices := by
  intro v
  refine ⟨fun pin h => ?register, fun e g p tok h => ?set, fun raised h => ?ack⟩
  case register =>
    obtain ⟨-, -, hpin⟩ := decode_eq_register_iff.1 h
    exact hpin
  case set =>
    rcases h with h | h
    · obtain ⟨-, -, rfl, rfl, rfl, rfl⟩ := decode_eq_seth_iff.1 h
      exact operandsE v
    · obtain ⟨-, -, rfl, rfl, rfl, rfl⟩ := decode_eq_seta_iff.1 h
      exact operandsE v
  case ack =>
    obtain ⟨-, -, hraised⟩ := decode_eq_ack_iff.1 h
    exact hraised

/-- Settles O6: the legal words are the encodings of their instructions, but for one with TOKEN bits that are ignored,
and the two illegal ones have a reserved bit at 1 and an opcode of no row. -/
theorem writtenOutWordsDecode : Obligations.WrittenOutWordsDecode :=
  ⟨decodeInvertsEncode .tick rfl, decodeInvertsEncode (.register 255) rfl,
    decodeInvertsEncode (.seth 0 .fall true 0x0A) rfl, Tests.test_decode_seth_absent,
    decodeInvertsEncode (.seta 255 .fall true 0) rfl, decodeInvertsEncode (.ack true) rfl,
    decodeInvertsEncode .reset rfl, rfl, rfl⟩

end Sys2Proof
end

section
/-! The obligations of 30_encoding.md about the machine: what an illegal word, SETH, SETA and the expansion of BUTTON do. -/

namespace Sys2Proof.Machine

variable {s t : State} {v : Word}

/-! ## Illegal words (R77, R204) -/

/-- R76: the row of every instruction is a row of the map. -/
theorem opcodeRow_mem_opcodeMap (i : Instr) : opcodeRow i ∈ opcodeMap := by
  cases i <;> simp [opcodeMap, opcodeRow]

/-- R76: a decoded word matches the row of its instruction. -/
theorem and_mask_of_decode {i : Instr} (h : decode v = .ok i) : v &&& (opcodeRow i).mask = (opcodeRow i).matchBits := by
  obtain ⟨htick, hregister, hseth, hseta, hack, hreset⟩ := wordIsInstructionOfRowExactlyByMask v
  cases i with
  | tick => exact htick.1 h
  | register pin => exact hregister.1 ⟨pin, h⟩
  | seth e g p tok => exact hseth.1 ⟨e, g, p, tok, h⟩
  | seta e g p tok => exact hseta.1 ⟨e, g, p, tok, h⟩
  | ack raised => exact hack.1 ⟨raised, h⟩
  | reset => exact hreset.1 h

/-- R77: a word that matches no row is illegal. -/
theorem executeWord_of_no_row (hv : ∀ r ∈ opcodeMap, v &&& r.mask ≠ r.matchBits) : executeWord v s = illegalWord s := by
  cases h : decode v with
  | ok i => exact absurd (and_mask_of_decode h) (hv _ (opcodeRow_mem_opcodeMap i))
  | error e => simp [executeWord, h]

/-- Settles O5: the write to CMD runs the word, and an illegal word's one effect is RESULT. -/
theorem illegalWordIsRejected : Obligations.IllegalWordIsRejected := by
  intro v s rest hv hr hb
  rw [step_of_bus_not_rst hr hb, hostAct_commandWrite_of_not_rst (s := { s with bus := rest }) v hr,
    executeWord_of_no_row hv, illegalWord]
  exact ⟨fun hf => unlessFaulted_eq_next.2 (.inr ⟨hf, rfl⟩), fun hf => unlessFaulted_eq_next.2 (.inl ⟨hf, rfl⟩)⟩

/-! ## SETH, SETA and BUTTON (R81, R141, R144, R145) -/

/-- R144, R145: SETH and SETA of a registered entry that exists replace that entry and write RESULT. -/
theorem updateEntry_of_lt {e : Byte} (f : Entry → Entry) (hf : s.fault = false) (he : e.toNat < s.count.toNat)
    (hslot : s.hasEntry e.toNat = true) :
    updateEntry e f s = .next ((s.setEntry e.toNat (f (s.entry e.toNat))).setResult .ok) := by
  rw [updateEntry, unlessFaulted_of_not_fault hf, if_neg (not_le.2 he)]
  exact writeEntry_eq_next.2 ⟨hslot, rfl⟩

/-- R28: an entry below COUNT exists. -/
theorem hasEntry_of_lt_count {i : Nat} (hi : i < s.count.toNat) (hfits : s.count.toNat ≤ s.params.maxButtons)
    (hlegal : s.params.Legal) : s.hasEntry i = true :=
  hasEntry_iff.2 ⟨hi.trans_le hfits, (hi.trans_le hfits).trans_le hlegal.2⟩

/-- R144, R145: a replaced entry and a written RESULT leave everything else of the state. -/
theorem setEntry_setResult_frame (s : State) (i : Nat) (x : Entry) (c : ResultCode) {t : State}
    (ht : (s.setEntry i x).setResult c = t) :
    t.count = s.count ∧ t.result = c ∧ t.trace = .result c :: s.trace ∧
      SameDebounce s t ∧ SameWalk s t ∧ SameFault s t ∧ SameSampler s t ∧ SameOutside s t := by
  subst ht
  exact ⟨rfl, rfl, rfl, ⟨rfl, rfl, rfl, rfl, rfl, rfl, rfl⟩, ⟨rfl, rfl, rfl⟩, ⟨rfl, rfl⟩, ⟨rfl, rfl⟩, ⟨rfl, rfl, rfl⟩⟩

/-- Settles O28: both replace the entry by one that differs in one field, and then write RESULT. -/
theorem setReplacesOneFieldOfOneEntry : Obligations.SetReplacesOneFieldOfOneEntry := by
  intro s e g p tok hf he hfits hlegal
  have hslot := hasEntry_of_lt_count he hfits hlegal
  obtain ⟨-, h32⟩ := hasEntry_iff.1 hslot
  have hthis (x : Entry) : (s.setEntry e.toNat x).entry e.toNat = x := by rw [entry_setEntry h32, if_pos rfl]
  have hother (x : Entry) (j : Nat) (hj : j ≠ e.toNat) : (s.setEntry e.toNat x).entry j = s.entry j := by
    rw [entry_setEntry h32, if_neg hj]
  constructor
  · refine ⟨_, (exec_seth s e g p tok).trans (updateEntry_of_lt _ hf he hslot), ?_⟩
    rw [entry_setResult, hthis, setH_pin, setH_a]
    exact ⟨rfl, fun k => setH_h _ g k _, fun _ => rfl, hother _, setEntry_setResult_frame s _ _ _ rfl⟩
  · refine ⟨_, (exec_seta s e g p tok).trans (updateEntry_of_lt _ hf he hslot), ?_⟩
    rw [entry_setResult, hthis, setA_pin, setA_h]
    exact ⟨rfl, fun _ => rfl, fun k => setA_a _ g k _, hother _, setEntry_setResult_frame s _ _ _ rfl⟩

/-- R81: a list of commands runs its parts one after the other. -/
theorem execAll_append {is js : List Instr} (h : execAll is s = .next t) : execAll (is ++ js) s = execAll js t := by
  induction is generalizing s with
  | nil =>
    obtain rfl : s = t := next_inj.1 h
    rfl
  | cons i is ih =>
    simp only [List.cons_append, execAll] at h ⊢
    split at h
    next u _ => exact ih h
    next => cases h
    next => cases h

theorem execAll_singleton (i : Instr) (s : State) : execAll [i] s = exec i s := by
  simp only [execAll]
  split <;> simp_all

/-- R141: REGISTER of a valid pin with room in the table appends the entry. -/
theorem execRegister_of_room {pin : Byte} (hf : s.fault = false) (hd : s.dispatching = false) (hpin : pin.toNat < W)
    (hroom : s.count.toNat < s.params.maxButtons) (hslot : s.hasEntry s.count.toNat = true) :
    execRegister pin s = .next (s.setEntry s.count.toNat (Entry.new pin)).countAndPrime := by
  rw [execRegister, unlessFaulted_of_not_fault hf, hd, if_neg Bool.false_ne_true, if_neg (not_le.2 hpin),
    if_neg hroom.ne]
  exact writeEntry_eq_next.2 ⟨hslot, rfl⟩

/-- From `s`, the expansion of BUTTON has come to `t`, in which the new entry is `x`: the commands that are left find no
fault and the entry registered. -/
structure ButtonBuilt (s t : State) (x : Entry) : Prop where
  fault : t.fault = false
  count : t.count.toNat = s.count.toNat + 1
  slot : t.hasEntry s.count.toNat = true
  result : t.result = .ok
  entry : t.entry s.count.toNat = x
  others : ∀ j, j ≠ s.count.toNat → t.entry j = s.entry j

theorem ButtonBuilt.register {pin : Byte} (hf : s.fault = false) (hd : s.dispatching = false) (hpin : pin.toNat < W)
    (hroom : s.count.toNat < s.params.maxButtons) (hlegal : s.params.Legal) :
    ∃ t, execAll [.register pin] s = .next t ∧ ButtonBuilt s t (Entry.new pin) := by
  have h32 : s.count.toNat < 32 := hroom.trans_le hlegal.2
  have hslot : s.hasEntry s.count.toNat = true := hasEntry_iff.2 ⟨hroom, h32⟩
  refine ⟨_, (execAll_singleton _ s).trans (execRegister_of_room hf hd hpin hroom hslot), ?_⟩
  exact {
    fault := hf
    count := count_succ_toNat h32
    slot := hslot
    result := rfl
    entry := by rw [entry_countAndPrime, entry_setEntry h32, if_pos rfl]
    others := fun j hj => by rw [entry_countAndPrime, entry_setEntry h32, if_neg hj] }

/-- One optional command of the expansion: it puts the token that is given into the field that `setField` replaces, which is
absent before; without a token the command is left out, and the field stays absent. -/
theorem ButtonBuilt.optional {x : Entry} (hbuilt : ButtonBuilt s t x) {cmd : Token → Instr}
    {setField : Entry → OptToken → Entry}
    (hcmd : ∀ tok u, exec (cmd tok) u = updateEntry s.count (fun y => setField y (.ofOperand true tok)) u)
    (habsent : setField x .absent = x) (o : Option Token) :
    ∃ u, execAll (o.map cmd).toList t = .next u ∧ ButtonBuilt s u (setField x (.ofOption o)) := by
  cases o with
  | none => exact ⟨t, rfl, habsent.symm ▸ hbuilt⟩
  | some tok =>
    obtain ⟨hf, hcount, hslot, -, hentry, hothers⟩ := hbuilt
    obtain ⟨-, h32⟩ := hasEntry_iff.1 hslot
    have hrun := updateEntry_of_lt (fun y => setField y (.ofOperand true tok)) hf (by omega) hslot
    refine ⟨_, (execAll_singleton _ t).trans ((hcmd tok t).trans hrun), ?_⟩
    exact {
      fault := hf
      count := hcount
      slot := hslot
      result := rfl
      entry := by
        rw [entry_setResult, entry_setEntry h32, if_pos rfl, hentry]
        rfl
      others := fun j hj => by rw [entry_setResult, entry_setEntry h32, if_neg hj, hothers j hj] }

/-- Settles O32: REGISTER builds an entry without tokens, and each of the four optional commands sets its field. -/
theorem buttonExpansionBuildsEntry : Obligations.ButtonExpansionBuildsEntry := by
  intro s pin rise fall rargs fargs hf hd hpin hroom hlegal
  obtain ⟨t₀, hrun₀, built₀⟩ := ButtonBuilt.register hf hd hpin hroom hlegal
  obtain ⟨t₁, hrun₁, built₁⟩ := built₀.optional (fun tok u => exec_seth u s.count .rise true tok) rfl rise
  obtain ⟨t₂, hrun₂, built₂⟩ := built₁.optional (fun tok u => exec_seth u s.count .fall true tok) rfl fall
  obtain ⟨t₃, hrun₃, built₃⟩ := built₂.optional (fun tok u => exec_seta u s.count .rise true tok) rfl rargs
  obtain ⟨t₄, hrun₄, built₄⟩ := built₃.optional (fun tok u => exec_seta u s.count .fall true tok) rfl fargs
  have hrun : execAll (pseudoButton s.count pin rise fall rargs fargs) s = .next t₄ := by
    rw [pseudoButton, List.append_assoc, List.append_assoc, List.append_assoc, execAll_append hrun₀,
      execAll_append hrun₁, execAll_append hrun₂, execAll_append hrun₃, hrun₄]
  exact ⟨t₄, hrun, built₄.entry, built₄.count, built₄.result, built₄.others⟩

end Sys2Proof.Machine
end

section
/-! The obligations of 40_debounce_engine.md: the engine on one lane, its runs, and what TICK makes of it. -/

namespace Sys2Proof.Machine

variable {s : State} {v : Word} {i : Nat}

/-! ## The engine on one lane (R100, R101)

Lines 2 to 4 of R100 for the bits of lane `i`; line 4 reads the new counters. -/

theorem debounce_c1_bit (s : State) (v : Word) (i : Nat) :
    (s.debounce v).c1.getLsbD i = ((s.c1.getLsbD i ^^ s.c0.getLsbD i) && (v.getLsbD i ^^ s.raw.getLsbD i)) := by
  simp only [State.debounce_c1, BitVec.getLsbD_and, BitVec.getLsbD_xor]

theorem debounce_c0_bit (s : State) (v : Word) (hi : i < W) :
    (s.debounce v).c0.getLsbD i = (!s.c0.getLsbD i && (v.getLsbD i ^^ s.raw.getLsbD i)) := by
  simp only [State.debounce_c0, BitVec.getLsbD_and, BitVec.getLsbD_not, BitVec.getLsbD_xor, hi, decide_true,
    Bool.true_and]

/-- R100, line 4: RAW flips under the mask of the new counters. -/
theorem debounce_raw_eq_flip (s : State) (v : Word) :
    (s.debounce v).raw = s.raw ^^^ ((s.debounce v).c0 &&& (s.debounce v).c1) := rfl

theorem debounce_raw_bit (s : State) (v : Word) (i : Nat) :
    (s.debounce v).raw.getLsbD i
      = (s.raw.getLsbD i ^^ ((s.debounce v).c0.getLsbD i && (s.debounce v).c1.getLsbD i)) := by
  rw [debounce_raw_eq_flip, BitVec.getLsbD_xor, BitVec.getLsbD_and]

/-- Settles O8: each new bit of a lane is written in the old bits of that lane and its sample bit. -/
theorem engineLanesAreIndependent : Obligations.EngineLanesAreIndependent := by
  intro s t a b i hi hsample hraw hc0 hc1
  have hc0' : (s.debounce a).c0.getLsbD i = (t.debounce b).c0.getLsbD i := by
    rw [debounce_c0_bit s a hi, debounce_c0_bit t b hi, hsample, hraw, hc0]
  have hc1' : (s.debounce a).c1.getLsbD i = (t.debounce b).c1.getLsbD i := by
    rw [debounce_c1_bit, debounce_c1_bit, hsample, hraw, hc0, hc1]
  refine ⟨?raw, hc0', hc1', ?delta⟩
  case raw => rw [debounce_raw_bit, debounce_raw_bit, hraw, hc0', hc1']
  case delta => rw [State.debounce_delta, State.debounce_delta, BitVec.getLsbD_xor, BitVec.getLsbD_xor, hsample, hraw]

/-- Settles O11: where the sample agrees DELTA is 0, and it masks both counters; with no counter set nothing flips. -/
theorem agreeingSampleClearsLane : Obligations.AgreeingSampleClearsLane := by
  intro s v i hi hagree
  have hc0 : (s.debounce v).c0.getLsbD i = false := by
    rw [debounce_c0_bit s v hi, hagree, Bool.xor_self, Bool.and_false]
  have hc1 : (s.debounce v).c1.getLsbD i = false := by
    rw [debounce_c1_bit, hagree, Bool.xor_self, Bool.and_false]
  exact ⟨hc0, hc1, by rw [debounce_raw_bit, hc0, Bool.false_and, Bool.xor_false]⟩

/-! ## The count of a lane (R24, R102) -/

theorem laneCount_lt (s : State) (i : Nat) : s.laneCount i < 4 := by
  have hc1 := Bool.toNat_le (s.c1.getLsbD i)
  have hc0 := Bool.toNat_le (s.c0.getLsbD i)
  unfold State.laneCount
  omega

/-- R24: the count is 3 when both counters are set. -/
theorem laneCount_eq_three_iff (s : State) (i : Nat) :
    s.laneCount i = 3 ↔ (s.c0.getLsbD i && s.c1.getLsbD i) = true := by
  unfold State.laneCount
  cases s.c0.getLsbD i <;> cases s.c1.getLsbD i <;> decide

/-- R102: an agreeing sample clears the count. -/
theorem laneCount_debounce_of_eq (hi : i < W) (hagree : v.getLsbD i = s.raw.getLsbD i) :
    (s.debounce v).laneCount i = 0 := by
  obtain ⟨hc0, hc1, -⟩ := agreeingSampleClearsLane s v i hi hagree
  rw [State.laneCount, hc0, hc1]
  rfl

/-- R102: a disagreeing sample counts up modulo 4: the low counter toggles, and the high one takes its carry. -/
theorem laneCount_debounce_of_ne (hi : i < W) (hne : v.getLsbD i ≠ s.raw.getLsbD i) :
    (s.debounce v).laneCount i = (s.laneCount i + 1) % 4 := by
  have hd : (v.getLsbD i ^^ s.raw.getLsbD i) = true := by simpa using hne
  rw [State.laneCount, debounce_c0_bit s v hi, debounce_c1_bit, hd, State.laneCount]
  cases s.c0.getLsbD i <;> cases s.c1.getLsbD i <;> rfl

/-- R102, R109: a lane flips when its new count is 3. -/
theorem debounce_raw_bit_of_laneCount (s : State) (v : Word) (i : Nat) :
    (s.debounce v).raw.getLsbD i = (s.raw.getLsbD i ^^ decide ((s.debounce v).laneCount i = 3)) := by
  simp only [debounce_raw_bit, laneCount_eq_three_iff, Bool.decide_eq_true]

/-- R109: the lanes that flip are left at count 3. -/
theorem debounce_flips_iff (s : State) (v : Word) (i : Nat) :
    (s.debounce v).raw.getLsbD i ≠ s.raw.getLsbD i ↔ (s.debounce v).laneCount i = 3 := by
  rw [debounce_raw_bit_of_laneCount]
  cases s.raw.getLsbD i <;> simp

/-- R102, R103: a lane flips exactly when it stands at count 2 and the sample disagrees once more. -/
theorem debounce_flips_iff_of_lane (hi : i < W) :
    (s.debounce v).raw.getLsbD i ≠ s.raw.getLsbD i ↔ s.laneCount i = 2 ∧ v.getLsbD i ≠ s.raw.getLsbD i := by
  rw [debounce_flips_iff]
  have hlt := laneCount_lt s i
  by_cases h : v.getLsbD i = s.raw.getLsbD i
  · simp [laneCount_debounce_of_eq hi h, h]
  · simp only [laneCount_debounce_of_ne hi h, h, ne_eq, not_false_eq_true, and_true]
    omega

/-- R107 item 2: at any other count no sample flips the lane. -/
theorem debounce_keeps_raw (hi : i < W) (hk : s.laneCount i ≠ 2) :
    (s.debounce v).raw.getLsbD i = s.raw.getLsbD i :=
  not_ne_iff.1 fun h => hk ((debounce_flips_iff_of_lane hi).1 h).1

/-- Settles O7: the two rows of R102, for a sample that agrees and for one that disagrees. -/
theorem engineFollowsLaneStateMachine : Obligations.EngineFollowsLaneStateMachine := by
  intro s v i hi
  refine ⟨fun hagree => ?agree, fun hne => ?disagree⟩
  case agree =>
    obtain ⟨-, -, hraw⟩ := agreeingSampleClearsLane s v i hi hagree
    exact ⟨laneCount_debounce_of_eq hi hagree, hraw⟩
  case disagree => exact ⟨laneCount_debounce_of_ne hi hne, debounce_raw_bit_of_laneCount s v i⟩

/-- Settles O13: xoring the old RAW away leaves the mask of line 4, which is set where the new count is 3. -/
theorem flipMaskIsBothCounters : Obligations.FlipMaskIsBothCounters := by
  intro s v
  refine ⟨?mask, fun i _ hflip => (debounce_flips_iff s v i).1 hflip⟩
  case mask => rw [debounce_raw_eq_flip, ← BitVec.xor_assoc, BitVec.xor_self, BitVec.zero_xor]

/-! ## Runs of the engine (R102, R103, R105) -/

/-- R102: one application of the engine is one step of the lane state machine. -/
theorem lane_debounce (s : State) (v : Word) (hi : i < W) :
    (s.debounce v).lane i = laneStep (s.lane i) (v.getLsbD i) := by
  unfold State.lane laneStep
  rw [debounce_raw_bit_of_laneCount]
  split_ifs with hagree hcommit
  · simp [laneCount_debounce_of_eq hi hagree]
  · simp [laneCount_debounce_of_ne hi hagree, hcommit]
  · simp [laneCount_debounce_of_ne hi hagree, hcommit]

/-- Settles O9, by induction on the samples: each one is a step of the lane state machine. -/
theorem engineRunRefinesLaneMachine : Obligations.EngineRunRefinesLaneMachine := by
  intro samples s i hi
  induction samples generalizing s with
  | nil => rfl
  | cons v samples ih => rw [List.foldl_cons, ih, lane_debounce s v hi, List.map_cons, List.foldl_cons]

/-- Settles O10: from count 0 the count is at most 1 after one sample, and 2 after two only if both disagree, so that
only the third sample can flip the lane. -/
theorem acceptanceTakesThreeSamples : Obligations.AcceptanceTakesThreeSamples := by
  intro s a b c i hi hk
  have hka : (s.debounce a).laneCount i = if a.getLsbD i = s.raw.getLsbD i then 0 else 1 := by
    split_ifs with h
    · exact laneCount_debounce_of_eq hi h
    · rw [laneCount_debounce_of_ne hi h, hk]
  have hra : (s.debounce a).raw.getLsbD i = s.raw.getLsbD i := debounce_keeps_raw hi (by omega)
  have hkab : ((s.debounce a).debounce b).laneCount i = 2 ↔
      a.getLsbD i ≠ s.raw.getLsbD i ∧ b.getLsbD i ≠ s.raw.getLsbD i := by
    by_cases h : b.getLsbD i = s.raw.getLsbD i
    · simp [laneCount_debounce_of_eq hi (h.trans hra.symm), h]
    · rw [laneCount_debounce_of_ne hi (hra ▸ h), hka]
      split_ifs with ha <;> simp [ha, h]
  have hrab : ((s.debounce a).debounce b).raw.getLsbD i = s.raw.getLsbD i :=
    (debounce_keeps_raw hi (by split_ifs at hka <;> omega)).trans hra
  refine ⟨hra, hrab, ?flips, fun h => laneCount_debounce_of_eq hi h,
    fun h => laneCount_debounce_of_eq hi (h.trans hra.symm), fun h => laneCount_debounce_of_eq hi (h.trans hrab.symm)⟩
  case flips =>
    have hflips := debounce_flips_iff_of_lane (s := (s.debounce a).debounce b) (v := c) hi
    rw [hrab, hkab, and_assoc] at hflips
    exact hflips

/-- R102: below the commit, a disagreeing sample only counts: from `k` to `k'` with the level kept. -/
theorem debounce_counts {r : Bool} {k k' : Nat} (hi : i < W) (hs : s.raw.getLsbD i = r ∧ s.laneCount i = k)
    (hne : v.getLsbD i ≠ r) (hk : k ≠ 2) (hk' : (k + 1) % 4 = k') :
    (s.debounce v).raw.getLsbD i = r ∧ (s.debounce v).laneCount i = k' := by
  obtain ⟨rfl, rfl⟩ := hs
  exact ⟨debounce_keeps_raw hi hk, (laneCount_debounce_of_ne hi hne).trans hk'⟩

/-- Settles O12: the four samples count 3, 0, 1, 2, and then 3 again with the flip. -/
theorem revertAfterCommitTakesFourSamples : Obligations.RevertAfterCommitTakesFourSamples := by
  intro s a b c d i hi hk ha hb hc hd
  obtain ⟨hra, hka⟩ := debounce_counts (k' := 0) hi ⟨rfl, hk⟩ ha (by decide) rfl
  obtain ⟨hrb, hkb⟩ := debounce_counts (k' := 1) hi ⟨hra, hka⟩ hb (by decide) rfl
  obtain ⟨hrc, hkc⟩ := debounce_counts (k' := 2) hi ⟨hrb, hkb⟩ hc (by decide) rfl
  have hflips := debounce_flips_iff_of_lane (s := ((s.debounce a).debounce b).debounce c) (v := d) hi
  rw [hrc] at hflips
  exact ⟨hka, hra, hrb, hrc, hflips.2 ⟨hkc, hd⟩⟩

/-! ## TICK (R120, R122, R124, R170 to R172) -/

/-- R170: TICK with no walk waiting and no fault. -/
theorem exec_tick_of_idle (hf : s.fault = false) (hd : s.dispatching = false) :
    exec .tick s = .next s.sampleAndLatch.dispatchEdges :=
  unlessFaulted_eq_next.2 (.inr ⟨hf, if_neg (ne_true_of_eq_false hd)⟩)

/-- R171: dispatching the edges reads no sample. -/
theorem dispatchEdges_sameSampler (s : State) : SameSampler s s.dispatchEdges := by
  rcases dispatchEdges_cases s with ⟨-, -, h⟩ | ⟨-, q, -, h⟩ | ⟨-, -, h⟩ <;> rw [h] <;> exact ⟨rfl, rfl⟩

theorem dispatchEdges_result (s : State) : s.dispatchEdges.result = s.result := by
  rcases dispatchEdges_cases s with ⟨-, -, h⟩ | ⟨-, q, -, h⟩ | ⟨-, -, h⟩ <;> rw [h] <;> rfl

/-- R172, R178: LAST takes RAW, unless an event is presented. -/
theorem dispatchEdges_last (hd : s.dispatching = false) :
    s.dispatchEdges.last = if s.dispatchEdges.dispatching then s.last else s.raw := by
  rcases dispatchEdges_cases s with ⟨-, -, h⟩ | ⟨-, q, -, h⟩ | ⟨-, -, h⟩ <;> rw [h]
  · exact (if_neg (ne_true_of_eq_false hd)).symm
  · rfl
  · rfl

/-- Settles O15: `sampleAndLatch` leaves the values of the engine and the edge detector, and dispatching the edges keeps
them all but LAST. -/
theorem tickSamplesDebouncesAndLatches : Obligations.TickSamplesDebouncesAndLatches := by
  intro s hf hd
  obtain ⟨⟨hcount, htable⟩, ⟨hfault, hcode⟩, hraw, hc0, hc1, hdelta, hrising, hfalling, -⟩ :=
    dispatchEdges_frame s.sampleAndLatch
  obtain ⟨hnext, hdraws⟩ := dispatchEdges_sameSampler s.sampleAndLatch
  obtain ⟨hparams, hrst, hbus⟩ := dispatchEdges_sameOutside s.sampleAndLatch
  refine ⟨_, exec_tick_of_idle hf hd, hdelta, ?c1, ?c0, ?raw, ?rising, ?falling, dispatchEdges_result _, ?last,
    ⟨hcount, htable⟩, ⟨hfault, hcode⟩, ⟨hnext, hdraws⟩, ⟨hparams, hrst, hbus⟩⟩
  case c1 => rw [hc1, hdelta]; rfl
  case c0 => rw [hc0, hdelta]; rfl
  case raw => rw [hraw, hc0, hc1]; rfl
  case rising => rw [hrising, hraw]; rfl
  case falling => rw [hfalling, hraw]; rfl
  case last => rw [hraw]; exact dispatchEdges_last hd

/-- R124: against the old level, the rising lanes are the flipped ones that were 0. -/
theorem risingEdges_xor (prev flips : Word) : risingEdges (prev ^^^ flips) prev = flips &&& ~~~prev := by
  ext j hj
  simp only [risingEdges, BitVec.getElem_and, BitVec.getElem_xor, BitVec.getElem_not]
  cases prev[j] <;> simp

/-- R124: against the old level, the falling lanes are the flipped ones that were 1. -/
theorem fallingEdges_xor (prev flips : Word) : fallingEdges (prev ^^^ flips) prev = flips &&& prev := by
  ext j hj
  simp only [fallingEdges, BitVec.getElem_and, BitVec.getElem_xor, BitVec.getElem_not]
  cases prev[j] <;> simp

/-- Settles O17: with LAST = RAW, TICK compares RAW with itself xor the flip mask. -/
theorem tickEdgesAreTheFlipsWhenLastIsRaw : Obligations.TickEdgesAreTheFlipsWhenLastIsRaw := by
  intro s t hf hd hlast ht
  obtain ⟨t', ht', -, -, -, hraw, hrising, hfalling, -⟩ := tickSamplesDebouncesAndLatches s hf hd
  obtain rfl : t' = t := next_inj.1 (ht'.symm.trans ht)
  rw [hlast, hraw] at hrising hfalling
  have hrise : t'.rising = (t'.c0 &&& t'.c1) &&& ~~~s.raw := hrising.trans (risingEdges_xor _ _)
  have hfall : t'.falling = (t'.c0 &&& t'.c1) &&& s.raw := hfalling.trans (fallingEdges_xor _ _)
  refine ⟨?union, hrise, hfall⟩
  case union =>
    rw [hrise, hfall]
    ext j hj
    simp only [BitVec.getElem_or, BitVec.getElem_and, BitVec.getElem_not]
    cases s.raw[j] <;> simp

end Sys2Proof.Machine
end

section
/-! The obligations of 41_edge_detector.md: the laws of the edge masks, and the edges of the tick after an aborted one. -/

namespace Sys2Proof.Machine

variable {s t : State} {cur cur' prev : Word} {i : Nat}

/-! ## The masks on one lane (R120, R121) -/

theorem risingEdges_bit (cur prev : Word) (hi : i < W) :
    (risingEdges cur prev).getLsbD i = (cur.getLsbD i && !prev.getLsbD i) := by
  simp only [risingEdges, BitVec.getLsbD_and, BitVec.getLsbD_not, decide_eq_true hi, Bool.true_and]

theorem fallingEdges_bit (cur prev : Word) (hi : i < W) :
    (fallingEdges cur prev).getLsbD i = (!cur.getLsbD i && prev.getLsbD i) := by
  simp only [fallingEdges, BitVec.getLsbD_and, BitVec.getLsbD_not, decide_eq_true hi, Bool.true_and]

/-- R121: the edges are the lanes that differ. -/
theorem risingEdges_or_fallingEdges (cur prev : Word) :
    risingEdges cur prev ||| fallingEdges cur prev = cur ^^^ prev := by
  apply BitVec.eq_of_getLsbD_eq
  intro i hi
  rw [BitVec.getLsbD_or, BitVec.getLsbD_xor, risingEdges_bit cur prev hi, fallingEdges_bit cur prev hi]
  cases cur.getLsbD i <;> cases prev.getLsbD i <;> rfl

/-- R121: a rising lane was 0. -/
theorem risingEdges_and_prev (cur prev : Word) : risingEdges cur prev &&& prev = 0 := by
  rw [risingEdges, BitVec.and_assoc, BitVec.and_comm (~~~prev), BitVec.and_not_self]
  exact BitVec.and_zero

/-- R121: a falling lane is 0. -/
theorem fallingEdges_and_cur (cur prev : Word) : fallingEdges cur prev &&& cur = 0 := by
  rw [fallingEdges, BitVec.and_comm (~~~cur)]
  exact risingEdges_and_prev prev cur

/-- Settles O14, law by law. -/
theorem edgeLaws : Obligations.EdgeLaws := fun cur prev =>
  ⟨risingEdges_and_fallingEdges cur prev, risingEdges_or_fallingEdges cur prev, risingEdges_and_prev cur prev,
    fallingEdges_and_cur cur prev⟩

/-! ## The tick after an aborted one (R179, R185) -/

/-- R120: lane `i` of the masks reads lane `i` of the levels alone. -/
theorem edges_lane_congr (hi : i < W) (hcur : cur'.getLsbD i = cur.getLsbD i) :
    (risingEdges cur' prev).getLsbD i = (risingEdges cur prev).getLsbD i ∧
      (fallingEdges cur' prev).getLsbD i = (fallingEdges cur prev).getLsbD i := by
  simp only [risingEdges_bit _ _ hi, fallingEdges_bit _ _ hi, hcur, and_self]

/-- R177: ACK of a waiting walk. -/
theorem exec_ack_of_waiting (raised : Bool) (hf : s.fault = false) (hd : s.dispatching = true) :
    exec (.ack raised) s = .next (s.acknowledge raised) :=
  unlessFaulted_eq_next.2 (.inr ⟨hf, if_pos hd⟩)

/-- R179: a raising handler ends the walk. -/
theorem acknowledge_raised_dispatching (s : State) : (s.acknowledge true).dispatching = false := rfl

/-- R179: a raising handler leaves LAST alone unless ABORT_COMMITS_LAST. -/
theorem acknowledge_raised_last (h : s.params.abortCommitsLast = false) : (s.acknowledge true).last = s.last :=
  if_neg (ne_true_of_eq_false h)

/-- R120, R122: TICK latches the edges of its new RAW against the old LAST. -/
theorem exec_tick_edges (hf : s.fault = false) (hd : s.dispatching = false) (h : exec .tick s = .next t) :
    t.rising = risingEdges t.raw s.last ∧ t.falling = fallingEdges t.raw s.last := by
  obtain ⟨t', ht', -, -, -, -, hrising, hfalling, -⟩ := tickSamplesDebouncesAndLatches s hf hd
  obtain rfl : t' = t := next_inj.1 (ht'.symm.trans h)
  exact ⟨hrising, hfalling⟩

/-- Settles O24: the abort leaves FAULT = 0, no walk waiting and LAST as it was, so the next TICK compares with that
LAST, and a lane whose RAW is the same has the same edges. -/
theorem abortedEdgesReappear : Obligations.AbortedEdgesReappear := by
  intro s t u hf hd hparam hack htick
  obtain rfl : s.acknowledge true = t := next_inj.1 ((exec_ack_of_waiting true hf hd).symm.trans hack)
  have hfault : (s.acknowledge true).fault = false := (acknowledge_frame s true).fault.trans hf
  obtain ⟨hrising, hfalling⟩ := exec_tick_edges hfault (acknowledge_raised_dispatching s) htick
  rw [acknowledge_raised_last hparam] at hrising hfalling
  refine ⟨hrising, hfalling, fun i hi hraw => ?_⟩
  rw [hrising, hfalling]
  exact edges_lane_congr hi hraw

end Sys2Proof.Machine
end

section
/-! The obligations of 42_registry.md: what REGISTER, SETH and SETA do when they are accepted and when they are rejected,
the samples they read, and what they change of the ticks and walks that follow. -/

namespace Sys2Proof.Machine

variable {s t : State}

/-! ## Rejections and the fault entry (R141, R144, R145, R204, R205) -/

/-- R141: REGISTER of a pin outside the word is rejected, whatever room there is. -/
theorem execRegister_of_pin_ge {pin : Byte} (hf : s.fault = false) (hd : s.dispatching = false)
    (hpin : W ≤ pin.toNat) : execRegister pin s = reject .pinRange s := by
  rw [execRegister, unlessFaulted_of_not_fault hf, hd, if_neg Bool.false_ne_true, if_pos hpin]

/-- R141: REGISTER of a valid pin is rejected when the table is full. -/
theorem execRegister_of_full {pin : Byte} (hf : s.fault = false) (hd : s.dispatching = false)
    (hpin : pin.toNat < W) (hfull : s.count.toNat = s.params.maxButtons) :
    execRegister pin s = reject .tableFull s := by
  rw [execRegister, unlessFaulted_of_not_fault hf, hd, if_neg Bool.false_ne_true, if_neg (not_le.2 hpin),
    if_pos hfull]

/-- Settles O26: the two checks that REGISTER makes before it writes, in their order. -/
theorem registerRejections : Obligations.RegisterRejections := fun _ _ hf hd =>
  ⟨execRegister_of_pin_ge hf hd, execRegister_of_full hf hd⟩

/-- R144, R145: SETH and SETA share the check of the entry. -/
theorem updateEntry_of_count_le {e : Byte} (f : Entry → Entry) (hf : s.fault = false)
    (he : s.count.toNat ≤ e.toNat) : updateEntry e f s = reject .badEntry s := by
  rw [updateEntry, unlessFaulted_of_not_fault hf, if_pos he]

/-- Settles O29, once for both commands. -/
theorem setOfUnregisteredEntryIsRejected : Obligations.SetOfUnregisteredEntryIsRejected := by
  intro s e g p tok hf he
  rw [exec_seth, exec_seta]
  exact ⟨updateEntry_of_count_le _ hf he, updateEntry_of_count_le _ hf he⟩

/-- R170, R205: TICK while a walk waits. -/
theorem exec_tick_of_waiting (hf : s.fault = false) (hd : s.dispatching = true) :
    exec .tick s = raiseFault .reentrantTick s :=
  (unlessFaulted_of_not_fault hf).trans (if_pos hd)

/-- R141, R205: REGISTER while a walk waits, before any check of the pin or the table. -/
theorem exec_register_of_waiting (pin : Byte) (hf : s.fault = false) (hd : s.dispatching = true) :
    exec (.register pin) s = raiseFault .registerInDispatch s :=
  (unlessFaulted_of_not_fault hf).trans (if_pos hd)

/-- Settles O36: both commands are the fault entry, which writes FAULT, FAULT_CODE and RESULT. -/
theorem faultEntryWritesExactlyThree : Obligations.FaultEntryWritesExactlyThree := fun _ pin hf hd =>
  ⟨exec_tick_of_waiting hf hd, exec_register_of_waiting pin hf hd⟩

/-! ## REGISTER accepted (R141, R142) -/

/-- Settles O25: the table write puts the new entry behind the registered ones, and COUNT + 1 and priming leave the
table and everything else of the block. -/
theorem registerAppendsAndPrimes : Obligations.RegisterAppendsAndPrimes := by
  intro s pin hf hd hpin hroom hlegal
  have h32 : s.count.toNat < 32 := hroom.trans_le hlegal.2
  have hentry (j : Nat) : (s.setEntry s.count.toNat (Entry.new pin)).countAndPrime.entry j
      = if j = s.count.toNat then Entry.new pin else s.entry j := entry_setEntry h32 _ j
  exact ⟨_, execRegister_of_room hf hd hpin hroom (hasEntry_iff.2 ⟨hroom, h32⟩), count_succ_toNat h32,
    (hentry _).trans (if_pos rfl), fun j hj => (hentry j).trans (if_neg hj),
    rfl, rfl, rfl, rfl, rfl, rfl, rfl, rfl, rfl, ⟨rfl, rfl, rfl⟩, ⟨rfl, rfl⟩, ⟨rfl, rfl⟩, ⟨rfl, rfl, rfl⟩⟩

/-- RESULT tells an accepted REGISTER from every rejection (R32, R141). -/
theorem exec_register_accepted {pin : Byte} (h : exec (.register pin) s = .next t) (hok : t.result = .ok) :
    s.fault = false ∧ s.dispatching = false ∧
      t = (s.setEntry s.count.toNat (Entry.new pin)).countAndPrime := by
  rcases execRegister_cases h with
    ⟨-, rfl⟩ | ⟨-, -, rfl⟩ | ⟨-, -, -, rfl⟩ | ⟨-, -, -, -, rfl⟩ | ⟨hf, hd, -, -, -, ht⟩
  case inr.inr.inr.inr => exact ⟨hf, hd, ht⟩
  all_goals cases hok

/-! ## Samples (R171) -/

/-- R177: an acknowledgement reads no sample, however the walk goes on. -/
theorem acknowledge_sameSampler (s : State) (raised : Bool) : SameSampler s (s.acknowledge raised) := by
  rcases acknowledge_cases s raised with ⟨-, h⟩ | ⟨-, q, -, h⟩ | ⟨-, -, h⟩ <;> rw [h] <;> exact ⟨rfl, rfl⟩

/-- R170, R171: TICK reads its sample before it dispatches the edges. -/
theorem oneSample_tick (s : State) : OneSample s s.sampleAndLatch.dispatchEdges := by
  obtain ⟨hnext, hdraws⟩ := dispatchEdges_sameSampler s.sampleAndLatch
  exact ⟨hnext, hdraws⟩

/-- R141, R142: REGISTER reads the sample it primes with. -/
theorem oneSample_register (s : State) (i : Nat) (x : Entry) : OneSample s (s.setEntry i x).countAndPrime :=
  ⟨rfl, rfl⟩

/-- The samples a command reads, by its effect: one by an accepted TICK or REGISTER, else none. -/
theorem CommandEffect.sampler {i : Instr} (h : CommandEffect s i t) :
    SameSampler s t ∨ (OneSample s t ∧ s.fault = false ∧ s.dispatching = false ∧ t.result = .ok ∧
      (i = .tick ∨ ∃ pin, i = .register pin)) := by
  cases h with
  | rejected | faults | setsHandler | setsArgument | resets => exact .inl ⟨rfl, rfl⟩
  | acknowledges raised => exact .inl (acknowledge_sameSampler s raised)
  | ticks hf hd => exact .inr ⟨oneSample_tick s, hf, hd, dispatchEdges_result _, .inl rfl⟩
  | registers pin hf hd => exact .inr ⟨oneSample_register s _ _, hf, hd, rfl, .inr ⟨pin, rfl⟩⟩

/-- Settles O44: the effect of each command says how many samples it reads; an idle TICK is always accepted, and a
REGISTER when its RESULT is OK. -/
theorem sampleReadOnceByTickAndRegisterAlone : Obligations.SampleReadOnceByTickAndRegisterAlone := by
  intro i s t h
  refine ⟨(exec_effect h).sampler, ?_⟩
  rintro (rfl | ⟨pin, rfl⟩) hf hd hok
  · obtain rfl := next_inj.1 ((exec_tick_of_idle hf hd).symm.trans h)
    exact oneSample_tick s
  · obtain ⟨-, -, rfl⟩ := exec_register_accepted h hok
    exact oneSample_register s _ _

/-! ## The tick after REGISTER (R102, R143) -/

/-- R100, R170: RAW after TICK is the engine's, run on the sample that is drawn. -/
theorem exec_tick_raw (hf : s.fault = false) (hd : s.dispatching = false) (h : exec .tick s = .next t) :
    t.raw = (s.debounce s.sampleValue).raw := by
  obtain rfl := next_inj.1 ((exec_tick_of_idle hf hd).symm.trans h)
  exact (dispatchEdges_frame s.sampleAndLatch).raw

/-- R102: a lane at count 2 takes the level of a sample that disagrees. -/
theorem debounce_raw_bit_of_count_two {v : Word} {i : Nat} (hi : i < W) (hk : s.laneCount i = 2)
    (hne : v.getLsbD i ≠ s.raw.getLsbD i) : (s.debounce v).raw.getLsbD i = v.getLsbD i := by
  have hflip := (debounce_flips_iff_of_lane hi).2 ⟨hk, hne⟩
  exact (Bool.eq_not_of_ne hflip).trans (Bool.eq_not_of_ne hne).symm

/-- R121, R122: the edges of a TICK are the lanes in which its new RAW differs from the old LAST. -/
theorem exec_tick_edge_bit_iff (hf : s.fault = false) (hd : s.dispatching = false) (h : exec .tick s = .next t)
    (i : Nat) : (t.rising ||| t.falling).getLsbD i = true ↔ t.raw.getLsbD i ≠ s.last.getLsbD i := by
  obtain ⟨hrising, hfalling⟩ := exec_tick_edges hf hd h
  rw [hrising, hfalling, risingEdges_or_fallingEdges, BitVec.getLsbD_xor, ← bne_iff_ne]

/-- R102, R103, R124: TICK commits a lane at count 2 whose sample disagrees, and where LAST = RAW the commit is an edge. -/
theorem exec_tick_commits_lane {i : Nat} (h : exec .tick s = .next t) (hf : s.fault = false)
    (hd : s.dispatching = false) (hi : i < W) (hlast : s.last = s.raw) (hk : s.laneCount i = 2)
    (hne : s.sampleValue.getLsbD i ≠ s.raw.getLsbD i) :
    t.raw.getLsbD i = s.sampleValue.getLsbD i ∧ (t.rising ||| t.falling).getLsbD i = true := by
  have hraw : t.raw.getLsbD i = s.sampleValue.getLsbD i := by
    rw [exec_tick_raw hf hd h, debounce_raw_bit_of_count_two hi hk hne]
  exact ⟨hraw, (exec_tick_edge_bit_iff hf hd h i).2 (by rwa [hraw, hlast])⟩

/-- Settles O27: REGISTER leaves the counters and makes LAST = RAW, so the next TICK finds the lane at count 2 and commits
its sample. -/
theorem primedLaneAtCountTwoCommitsAtOnce : Obligations.PrimedLaneAtCountTwoCommitsAtOnce := by
  intro s t u pin i x hi hk hregister hok hne htick
  obtain ⟨hf, hd, rfl⟩ := exec_register_accepted hregister hok
  exact ⟨hk, exec_tick_commits_lane htick hf hd hi rfl hk hne⟩

/-! ## A handler set during a walk (R144, R174, R182) -/

/-- R144, R174: setting one handler decides anew whether its own position matches, and no other. -/
theorem matches_setH {e : Nat} (he : e < 32) (g : Edge) (o : OptToken) (q : Pos) :
    (s.setEntry e ((s.entry e).setH g o)).matches q =
      if q = ⟨e, g⟩ then laneBit (s.edgeMask g) (s.entry e).pin && o.present else s.matches q := by
  have hmask (k : Edge) : (s.setEntry e ((s.entry e).setH g o)).edgeMask k = s.edgeMask k := edgeMask_congr rfl rfl k
  obtain ⟨j, k⟩ := q
  simp only [State.matches, hmask, pin_setEntry he (setH_pin _ g o)]
  rw [entry_setEntry he]
  by_cases hj : j = e
  · subst hj
    by_cases hk : k = g <;> simp [hk]
  · simp [hj]

/-- R173, R182: a handler set on a registered position whose pin bit is in the mask, with no match before it, makes it the
first match. -/
theorem firstMatchFrom_setH {e n : Nat} {g : Edge} {o : OptToken} (he : e < 32) (hentry : e < s.count.toNat)
    (hlane : laneBit (s.edgeMask g) (s.entry e).pin = true) (ho : o.present = true) (hn : n ≤ (Pos.mk e g).rank)
    (hbefore : ∀ q : Pos, n ≤ q.rank → q.rank < (Pos.mk e g).rank → ¬ s.MatchesAt q) :
    (s.setEntry e ((s.entry e).setH g o)).FirstMatchFrom n ⟨e, g⟩ := by
  refine ⟨⟨hentry, ?here⟩, hn, fun q hq hlt hmatch => ?before⟩
  case here => rw [matches_setH he, if_pos rfl, hlane, ho]; rfl
  case before =>
    obtain ⟨hregistered, hmatch⟩ := hmatch
    have hne : q ≠ ⟨e, g⟩ := by
      rintro rfl
      exact lt_irrefl _ hlt
    rw [matches_setH he, if_neg hne] at hmatch
    exact hbefore q hq hlt ⟨hregistered, hmatch⟩

/-- R175, R177: ACK ok presents the first match after CURSOR. -/
theorem exec_ack_of_firstMatch {p : Pos} (h : exec (.ack false) s = .next t) (hf : s.fault = false)
    (hd : s.dispatching = true) (hp : s.FirstMatchFrom (s.cursor.pos.rank + 1) p) : Presents s t p := by
  obtain rfl := next_inj.1 ((exec_ack_of_waiting false hf hd).symm.trans h)
  have ⟨hmatch, hrank, _⟩ := hp
  rcases acknowledge_cases s false with ⟨hraised, -⟩ | ⟨-, q, hq, hpresent⟩ | ⟨-, hnone, -⟩
  · cases hraised
  · obtain rfl := firstMatchFrom_unique hp hq
    rw [hpresent]
    exact ⟨rfl, rfl, rfl, rfl⟩
  · exact absurd hmatch (hnone p hrank)

/-- Settles O23: after SETH the position is the first match past CURSOR, which SETH leaves, and ACK ok presents it. -/
theorem handlerSetDuringWalkAddsEvent : Obligations.HandlerSetDuringWalkAddsEvent := by
  intro s t u e g tok inv hf hd he hafter hlane hbetween hseth hack
  have h32 : e.toNat < 32 := inv.lt_32 he
  have hslot : s.hasEntry e.toNat = true := hasEntry_of_lt_count he inv.countFits inv.params
  rw [exec_seth, updateEntry_of_lt _ hf he hslot] at hseth
  obtain rfl := next_inj.1 hseth
  have hfirst := firstMatchFrom_setH (o := .ofOperand true tok) h32 he hlane rfl hafter hbetween
  obtain ⟨hwait, hcursor, hevent, -⟩ :=
    exec_ack_of_firstMatch hack hf hd ((firstMatchFrom_congr rfl rfl rfl rfl _ _).2 hfirst)
  rw [entry_setResult, entry_setEntry h32, if_pos rfl] at hevent
  exact ⟨rfl, hwait, hcursor, hevent⟩

end Sys2Proof.Machine
end

section
/-! The obligations of 43_tick_dispatch.md: which event TICK and ACK present, the order in which one walk presents them,
how a walk ends, and what alone starts one. -/

namespace Sys2Proof.Machine

variable {s t : State}

/-! ## Where a walk goes (R170, R173 to R175, R177, R178) -/

/-- R173, R175: the walk stops at the first match. -/
theorem walkFrom_of_firstMatch {p q : Pos} (hq : s.FirstMatchFrom p.rank q) : s.walkFrom p = s.present q := by
  rcases walkFrom_cases s p with ⟨r, hr, h⟩ | ⟨hnone, -⟩
  · rw [h, firstMatchFrom_unique hr hq]
  · exact absurd hq.1 (hnone q hq.2.1)

/-- R173, R178: the walk ends where nothing matches. -/
theorem walkFrom_of_noMatch {p : Pos} (hnone : s.NoMatchFrom p.rank) : s.walkFrom p = s.finish := by
  rcases walkFrom_cases s p with ⟨q, ⟨hmatch, hrank, -⟩, -⟩ | ⟨-, h⟩
  · exact absurd hmatch (hnone q hrank)
  · exact h

/-- R170, R172: a match needs an edge, so the tick walks and presents it. -/
theorem dispatchEdges_of_firstMatch {p : Pos} (hp : s.FirstMatchFrom 0 p) : s.dispatchEdges = s.present p := by
  have hedges : ¬ (s.rising = 0 ∧ s.falling = 0) := fun ⟨hr, hf⟩ => not_matchesAt_of_no_edges hr hf p hp.1
  exact (if_neg hedges).trans (walkFrom_of_firstMatch hp)

/-- R170, R172, R178: from an idle block with no event, a tick without edges ends as a walk without matches does. -/
theorem dispatchEdges_of_noMatch (hd : s.dispatching = false) (he : s.event = 0) (hnone : s.NoMatchFrom 0) :
    s.dispatchEdges = s.finish := by
  by_cases hedges : s.rising = 0 ∧ s.falling = 0
  · calc s.dispatchEdges = { s with last := s.raw } := if_pos hedges
      _ = s.finish := by rw [State.finish, ← hd, ← he]
  · exact (if_neg hedges).trans (walkFrom_of_noMatch hnone)

/-- R177: the walk resumes right after CURSOR, with the masks and the table it had. -/
theorem acknowledge_of_firstMatch {p : Pos} (hp : s.FirstMatchFrom (s.cursor.pos.rank + 1) p) :
    s.acknowledge false = ((s.note (.acked s.event false)).setResult .ok).present p := by
  rw [← succ_rank] at hp
  exact walkFrom_of_firstMatch ((firstMatchFrom_congr rfl rfl rfl rfl _ p).2 hp)

theorem acknowledge_of_noMatch (hnone : s.NoMatchFrom (s.cursor.pos.rank + 1)) :
    s.acknowledge false = ((s.note (.acked s.event false)).setResult .ok).finish := by
  rw [← succ_rank] at hnone
  exact walkFrom_of_noMatch ((noMatchFrom_congr rfl rfl rfl rfl _).2 hnone)

/-! ## TICK (R170, R172 to R175, R178) -/

/-- Settles O16: the masks and the table that the walk is judged by are those that TICK latched, and by them it presents
the first match or finishes. -/
theorem tickPresentsFirstMatch : Obligations.TickPresentsFirstMatch := by
  intro s t hf hd he h
  obtain rfl := next_inj.1 ((exec_tick_of_idle hf hd).symm.trans h)
  have frame := dispatchEdges_frame s.sampleAndLatch
  refine ⟨fun p hp => ?present, fun hnone => ?finish⟩
  case present =>
    rw [firstMatchFrom_congr frame.count frame.table frame.rising frame.falling] at hp
    rw [dispatchEdges_of_firstMatch hp]
    exact ⟨⟨rfl, rfl, rfl, rfl⟩, rfl⟩
  case finish =>
    rw [noMatchFrom_congr frame.count frame.table frame.rising frame.falling] at hnone
    rw [dispatchEdges_of_noMatch (s := s.sampleAndLatch) hd he hnone]
    exact ⟨⟨rfl, rfl, rfl, rfl⟩, rfl⟩

/-! ## ACK (R177 to R180) -/

/-- R177: the RESULT of ACK ok is OK, however the walk goes on. -/
theorem acknowledge_ok_result (s : State) : (s.acknowledge false).result = .ok := by
  rcases acknowledge_cases s false with ⟨hraised, -⟩ | ⟨-, q, -, h⟩ | ⟨-, -, h⟩
  · cases hraised
  · rw [h]; rfl
  · rw [h]; rfl

/-- Settles O18: an acknowledgement keeps all but LAST, RESULT, the walk and the trace, and these are what presenting
the next match or finishing makes them. -/
theorem ackOkResumesWalkAfterCursor : Obligations.AckOkResumesWalkAfterCursor := by
  intro s hf hd
  have frame := acknowledge_frame s false
  refine ⟨_, exec_ack_of_waiting false hf hd, acknowledge_ok_result s, frame.raw, frame.c0, frame.c1, frame.delta,
    frame.rising, frame.falling, frame.toSameTable, frame.toSameFault, acknowledge_sameSampler s false,
    acknowledge_sameOutside s false, fun p hp => ?present, fun hnone => ?finish⟩
  case present =>
    rw [acknowledge_of_firstMatch hp]
    exact ⟨⟨rfl, rfl, rfl, rfl⟩, rfl⟩
  case finish =>
    rw [acknowledge_of_noMatch hnone]
    exact ⟨⟨rfl, rfl, rfl, rfl⟩, rfl⟩

/-- R173, R177: while the walk goes on, CURSOR stands at the first match after where it stood. -/
theorem BlockInv.acknowledge_cursor (inv : BlockInv s) {raised : Bool}
    (hd : (s.acknowledge raised).dispatching = true) :
    s.FirstMatchFrom (s.cursor.pos.rank + 1) (s.acknowledge raised).cursor.pos := by
  rcases acknowledge_cases s raised with ⟨-, h⟩ | ⟨-, q, hq, h⟩ | ⟨-, -, h⟩ <;> rw [h] at hd ⊢
  · exact absurd hd Bool.false_ne_true
  · rwa [State.present_cursor, cursor_pos (inv.lt_32 hq.1.1)]
  · exact absurd hd Bool.false_ne_true

/-- Settles O21: the first match after CURSOR has a higher rank, and with COUNT ≤ 32 the 5 bits of CURSOR hold it. -/
theorem walkOrderIsStrictlyIncreasing : Obligations.WalkOrderIsStrictlyIncreasing := by
  intro s t raised inv hd hf h hwait
  obtain rfl := next_inj.1 ((exec_ack_of_waiting raised hf hd).symm.trans h)
  obtain ⟨-, hrank, -⟩ := inv.acknowledge_cursor hwait
  exact hrank

/-- Settles O19: a raised acknowledgement is noted and is `abort`, field by field. -/
theorem ackRaisedAbortsWalk : Obligations.AckRaisedAbortsWalk := fun _ hf hd => exec_ack_of_waiting true hf hd

/-- R177: ACK with no walk waiting. -/
theorem exec_ack_of_idle (raised : Bool) (hf : s.fault = false) (hd : s.dispatching = false) :
    exec (.ack raised) s = reject .notDispatching s :=
  (unlessFaulted_of_not_fault hf).trans (if_neg (ne_true_of_eq_false hd))

/-- Settles O20: the rejection writes RESULT alone (R200). -/
theorem ackWithoutEventIsRejected : Obligations.AckWithoutEventIsRejected := fun _ raised hf hd =>
  exec_ack_of_idle raised hf hd

/-! ## What starts a walk (R170, R209) -/

/-- R76: TICK has one word. -/
theorem eq_of_decode_tick {v : Word} (h : decode v = .ok .tick) : v = 0x10000000 := by
  obtain ⟨hop, hzero⟩ := decode_eq_tick_iff.1 h
  rw [eq_append_of_reservedZeroN hzero, hop]
  rfl

/-- R170: no command but TICK makes an idle block wait; ACK and the fault entry find it waiting. -/
theorem CommandEffect.eq_tick_of_starts {i : Instr} (h : CommandEffect s i t) (hs : s.dispatching = false)
    (ht : t.dispatching = true) : i = .tick := by
  cases h with
  | ticks => rfl
  | rejected | registers | setsHandler | setsArgument => exact absurd ht (ne_true_of_eq_false hs)
  | faults _ _ _ hwait | acknowledges _ _ hwait => exact absurd hwait (ne_true_of_eq_false hs)
  | resets => exact absurd ht Bool.false_ne_true

/-- R204, R209: no word but TICK's makes an idle block wait. -/
theorem eq_tick_word_of_starts {v : Word} (h : executeWord v s = .next t) (hs : s.dispatching = false)
    (ht : t.dispatching = true) : v = 0x10000000 := by
  rcases executeWord_effect h with ⟨i, hi, heffect⟩ | ⟨code, -, rfl⟩
  · obtain rfl := heffect.eq_tick_of_starts hs ht
    exact eq_of_decode_tick hi
  · exact absurd ht (ne_true_of_eq_false hs)

/-- Settles O39: a reset leaves no walk waiting, every other act but a command word leaves the walk as it is. -/
theorem onlyTickStartsWaiting : Obligations.OnlyTickStartsWaiting := by
  intro s t (hs : s.dispatching = false) h (ht : t.dispatching = true)
  rcases step_block_cases h with ⟨-, hreset⟩ | hsame | ⟨v, rest, hb, hword⟩
  · exact absurd (hreset.dispatching.symm.trans ht) Bool.false_ne_true
  · exact absurd (hsame.dispatching.symm.trans ht) (ne_true_of_eq_false hs)
  · obtain rfl := eq_tick_word_of_starts (s := { s with bus := rest }) hword hs ht
    exact ⟨rest, hb⟩

end Sys2Proof.Machine
end

section
/-! The obligations of 60_exceptions.md: what a faulted block answers, what ends a walk, and the idle step. -/

namespace Sys2Proof.Machine

variable {s t : State} {v : Word}

/-! ## While FAULT = 1 (R204, R206) -/

/-- The FAULT check answers, whatever the rest of the command would do. -/
theorem unlessFaulted_of_fault {run : Result} (hf : s.fault = true) : unlessFaulted s run = reject .faulted s :=
  if_pos hf

/-- R206, at the instructions: every meaning but RESET's begins with the FAULT check, so no table write is reached that
could stop (log 7). -/
theorem exec_of_fault {i : Instr} (hf : s.fault = true) (hi : i ≠ .reset) : exec i s = reject .faulted s := by
  cases i with
  | tick | register | seth | seta | ack => exact unlessFaulted_of_fault hf
  | reset => exact absurd rfl hi

/-- R206, at the command words: RESET has one word, and the illegal words are checked for FAULT too. -/
theorem executeWord_of_fault (hf : s.fault = true) (hv : v ≠ 0xF0000000) : executeWord v s = reject .faulted s := by
  cases hdecode : decode v with
  | ok i =>
    have hi : i ≠ .reset := by
      rintro rfl
      exact hv (eq_of_decode_reset hdecode)
    rw [executeWord_of_decode hdecode, exec_of_fault hf hi]
  | error e =>
    rw [executeWord, hdecode]
    exact unlessFaulted_of_fault hf

/-- Settles O37: the write to CMD runs the word, and the FAULT check answers it. -/
theorem faultedBlockIgnoresWords : Obligations.FaultedBlockIgnoresWords := by
  intro s v rest hf hr hb hv
  rw [step_of_bus_not_rst hr hb, hostAct_commandWrite_of_not_rst (s := { s with bus := rest }) v hr,
    executeWord_of_fault (s := { s with bus := rest }) hf hv]
  rfl

/-! ## What ends a walk (R177, R209, R238) -/

/-- R76: ACK has two words, one for each value of RAISED. -/
theorem eq_of_decode_ack {raised : Bool} (h : decode v = .ok (.ack raised)) : v = 0x50000000 ∨ v = 0x50000001 := by
  obtain ⟨hop, hzero, rfl⟩ := decode_eq_ack_iff.1 h
  rw [← encode_ack_of_fields hop hzero]
  cases raisedField v with
  | false => exact .inl rfl
  | true => exact .inr rfl

/-- R177, R209: no command but ACK and RESET ends a walk; TICK and REGISTER are accepted only with no walk waiting, and
the fault entry leaves the walk waiting (R205). -/
theorem CommandEffect.ack_or_reset_of_ends {i : Instr} (h : CommandEffect s i t) (hs : s.dispatching = true)
    (ht : t.dispatching = false) : (∃ raised, i = .ack raised) ∨ i = .reset := by
  cases h with
  | acknowledges raised => exact .inl ⟨raised, rfl⟩
  | resets => exact .inr rfl
  | ticks _ hidle | registers _ _ hidle => exact absurd hs (ne_true_of_eq_false hidle)
  | rejected | faults | setsHandler | setsArgument => exact absurd hs (ne_true_of_eq_false ht)

/-- R204, R209: no word but those of ACK and RESET ends a walk. -/
theorem eq_ack_or_reset_word_of_ends (h : executeWord v s = .next t) (hs : s.dispatching = true)
    (ht : t.dispatching = false) : v = 0x50000000 ∨ v = 0x50000001 ∨ v = 0xF0000000 := by
  rcases executeWord_effect h with ⟨i, hi, heffect⟩ | ⟨code, -, rfl⟩
  · rcases heffect.ack_or_reset_of_ends hs ht with ⟨raised, rfl⟩ | rfl
    · exact (eq_of_decode_ack hi).imp_right .inl
    · exact .inr (.inr (eq_of_decode_reset hi))
  · exact absurd hs (ne_true_of_eq_false ht)

/-- Settles O40: besides a reset by `rst` and a command word, every act leaves the walk as it is. -/
theorem onlyAckOrResetEndsWaiting : Obligations.OnlyAckOrResetEndsWaiting := by
  intro s t (hs : s.dispatching = true) h (ht : t.dispatching = false)
  rcases step_block_cases h with ⟨hr | ⟨rest, hb⟩, -⟩ | hsame | ⟨v, rest, hb, hword⟩
  · exact .inl hr
  · exact .inr ⟨_, rest, hb, .inr (.inr (.inr rfl))⟩
  · exact absurd (hsame.dispatching.trans hs) (ne_true_of_eq_false ht)
  · refine .inr ⟨_, rest, hb, ?_⟩
    rcases eq_ack_or_reset_word_of_ends (s := { s with bus := rest }) hword hs ht with rfl | rfl | rfl
    · exact .inl rfl
    · exact .inr (.inl rfl)
    · exact .inr (.inr (.inl rfl))

/-! ## The idle block (R216, R230) -/

/-- R216, log 17: with nothing pending, a step makes only the reset that an asserted `rst` holds. -/
theorem step_of_bus_nil (hb : s.bus = []) : step s = .next s.held := by
  simp [step, serveBus, hb]

/-- Settles O42: with `rst` released nothing is held at reset. -/
theorem idleStepChangesNothing : Obligations.IdleStepChangesNothing := by
  intro s hb hr
  rw [step_of_bus_nil hb, held_of_not_rst hr]

end Sys2Proof.Machine
end

section
/-! The obligation of 70_reset_and_hazards.md: what a step keeps while `rst` is asserted. -/

namespace Sys2Proof.Machine

variable {s t : State}

/-- R230: a released `rst` becomes asserted by `setRst true` alone, and that act resets the block. -/
theorem step_asserts_rst (hr : s.rst = false) (h : step s = .next t) (ht : t.rst = true) :
    ∃ rest, s.bus = .setRst true :: rest ∧ t = { s with bus := rest, rst := true }.resetBlock := by
  have hchanged : t.rst ≠ s.rst := fun hsame => absurd (hsame.symm.trans ht) (ne_true_of_eq_false hr)
  rcases step_released hr h with ⟨-, rfl⟩ | ⟨a, rest, hb, hact⟩
  · exact absurd rfl hchanged
  · rcases hact with ⟨x, rfl⟩ | rfl | ⟨v, rfl⟩ | ⟨rfl, hreset⟩ | ⟨-, rfl⟩ | ⟨v, -, hword⟩
    · exact absurd rfl hchanged
    · exact absurd rfl hchanged
    · exact absurd rfl hchanged
    · exact ⟨rest, hb, hreset⟩
    · exact absurd ht Bool.false_ne_true
    · exact absurd (executeWord_sameOutside hword).rst hchanged

/-- Settles O52. The invariant of `s` is not used: a step taken with `rst` asserted resets the block first, and a step
that asserts it resets the block too. -/
theorem stepKeepsHeldInv : Obligations.StepKeepsHeldInv := by
  intro s t _ h ht
  cases hr : s.rst with
  | true =>
    obtain ⟨hreset, -⟩ := step_held hr h
    exact hreset.symm
  | false =>
    obtain ⟨rest, -, rfl⟩ := step_asserts_rst hr h ht
    exact resetBlock_resetBlock

end Sys2Proof.Machine
end
